-- ==== Sys2Proof/Word.lean ====
section
/-! DEFINITION. The widths the hardware has: registers (00_scope.md R5), bytes and CRC values, and bit sequences (R8). -/
namespace Sys2Proof

/-- A host-visible register: REG_WIDTH = 32 (00_scope.md R5). -/
abbrev Word := BitVec 32

/-- A byte of the payload or of the packed frame (00_scope.md R10). -/
abbrev Byte := BitVec 8

/-- A CRC value or the CRC working register (10_state.md R27, R32). -/
abbrev Half := BitVec 16

/-- A bit sequence, index 0 first: first written, first processed, first on air (00_scope.md R8). -/
abbrev Bits := List Bool

end Sys2Proof
end

