-- ==== Sys2Proof/Syntax.lean ====
section
/-! DEFINITION. The six commands (30_encoding.md R91) and the things the outside world does at the port (30_encoding.md R107). -/
namespace Sys2Proof

/-- The commands: one constructor for each row of spec/opcode_table.json. No command has an operand field (30_encoding.md R90). -/
inductive Instr where
  | nop
  | pack
  | frame
  | packframe
  | crc
  | clrerr
  deriving DecidableEq, Repr

/-- One thing the outside world does to the block: a bus transaction at a byte offset from BASE (20_memory.md R61, R62),
a poll of STATUS until BUSY is 0 (the WAIT of 30_encoding.md R107), or the reset input (70_reset_and_hazards.md R340).
An access carries its width in bytes, so that the accesses the block does not define (R63) can be said, and are refused. -/
inductive HostOp where
  | write (off width : Nat) (value : Word)
  | read (off width : Nat)
  | poll
  | reset
  deriving DecidableEq, Repr

end Sys2Proof
end

