-- ==== Sys2Proof/Decode.lean ====
section
/-! DEFINITION. Command words (30_encoding.md R90 to R93): decoding, total on every 32-bit word, and encoding. -/
namespace Sys2Proof

/-- Why a word selects no command. Either way the block raises ILLCMD (60_exceptions.md R305). -/
inductive DecodeError where
  /-- RSV is not 0 (30_encoding.md R93). -/
  | reservedBits
  /-- RSV is 0 and OP is one of 6..15 (30_encoding.md R92). -/
  | reservedOpcode
  deriving DecidableEq, Repr

/-- RSV, bits 31:4 (30_encoding.md R90). -/
def rsvField (w : Word) : BitVec 28 := w.extractLsb' 4 28

/-- OP, bits 3:0 (30_encoding.md R90). -/
def opField (w : Word) : BitVec 4 := w.extractLsb' 0 4

/-- The opcode map (30_encoding.md R91, R92). -/
def decodeOpcode (op : Nat) : Except DecodeError Instr :=
  match op with
  | 0 => .ok .nop
  | 1 => .ok .pack
  | 2 => .ok .frame
  | 3 => .ok .packframe
  | 4 => .ok .crc
  | 5 => .ok .clrerr
  | _ => .error .reservedOpcode

/-- A word selects a command exactly when RSV = 0 and OP is one of 0..5 (30_encoding.md R91 to R93). -/
def decode (w : Word) : Except DecodeError Instr :=
  if rsvField w = 0#28 then decodeOpcode (opField w).toNat else .error .reservedBits

/-- OP of each command (30_encoding.md R91). -/
def opcode (i : Instr) : BitVec 4 :=
  match i with
  | .nop => 0x0#4
  | .pack => 0x1#4
  | .frame => 0x2#4
  | .packframe => 0x3#4
  | .crc => 0x4#4
  | .clrerr => 0x5#4

/-- The word of a command: RSV = 0, then OP (30_encoding.md R90, R91). -/
def encode (i : Instr) : Word := (opcode i).setWidth 32

/-- The word whose low `nbits` bits are `w`'s, the bits above zero; none where that does not fit in a command word.
The block has no byte order (20_memory.md R63): a command word is one number. -/
def tableWord (nbits w : Nat) : Option Word :=
  if w % 2 ^ nbits < 2 ^ 32 then some (BitVec.ofNat 32 (w % 2 ^ nbits)) else none

/-- What the decoder reads from an instruction whose bits are `w`, numbered as spec/opcode_table.json numbers them. -/
def decodeTableWord (nbits w : Nat) : Option Instr :=
  match tableWord nbits w with
  | none => none
  | some v =>
    match decode v with
    | .ok i => some i
    | .error _ => none

end Sys2Proof
end

