-- ==== Sys2Proof/Config.lean ====
section
/-! DEFINITION. The parameters of 00_scope.md R5 as named constants, and what no rule fixes as opaque constants
(92_eei_decisions.md, "Open parameters"; 93_implementation_defined.md part 1). -/
namespace Sys2Proof

/-- What PACK does with an operand out of range (00_scope.md R5, 90_conflicts.md C1). -/
inductive RangePolicy where
  | reject
  | mask
  deriving DecidableEq, Repr

namespace Config

abbrev payloadBits : Nat := 168
abbrev crcBits : Nat := 16
abbrev dataBits : Nat := 184
abbrev preambleBits : Nat := 24
abbrev flagBits : Nat := 8
abbrev frameBits : Nat := 256
abbrev frameBytes : Nat := 32
abbrev stuffBudget : Nat := 216
abbrev stuffRun : Nat := 5
abbrev crcInit : Half := 0xFFFF#16
abbrev crcXorOut : Half := 0xFFFF#16
/-- PRESUMED (the spec marks it as general knowledge, 93_implementation_defined.md G1; log 8). -/
abbrev crcPolyReflected : Half := 0x8408#16
abbrev coordScale : Nat := 600000
abbrev mmsiLimit : Nat := 2 ^ 30
abbrev latLimit : Int := 54000000
abbrev lonLimit : Int := 108000000
/-- "Under way using engine". PRESUMED 0 (the spec marks it as general knowledge, 93_implementation_defined.md G2; log 9). -/
abbrev navStatus : Nat := 0
/-- The policy this hardware takes (90_conflicts.md C1: reject wins; log 10). -/
abbrev rangePolicy : RangePolicy := .reject

/-- BASE, OPEN (00_scope.md R5; log 16): the byte address of register offset 0 in the host's address space. -/
opaque base : Nat

/-- LATENCY(op), OPEN (00_scope.md R5, 47_commands.md R237; log 5): how many engine steps precede the completing step of a
command, for each acceptance; LATENCY is this number plus one. -/
opaque latency : Instr → Nat → Nat

/-- The interleaving, OPEN (00_scope.md R7, U8; log 4): how many host turns come before the engine's next turn. -/
opaque hostBurst : Nat → Nat

/-- What a read of a data register returns while BUSY = 1: any 32-bit value (20_memory.md R61, R72, U1; log 6). -/
opaque busyRead : Nat → Word

/-- ROUND_TIES, OPEN (40_field_packing.md R130, U10; log 17): whether an exact tie above this integer is rounded up. -/
opaque tieUp : Int → Bool

/-- What the reset input leaves in the working registers that are numbers (70_reset_and_hazards.md R340, U2; log 7). -/
opaque freeNat : Nat → Nat

/-- What the reset input leaves in the frame shift register SR (70_reset_and_hazards.md R340, U2; log 7). -/
opaque freeBits : Nat → Vector Bool 256

end Config
end Sys2Proof
end

