-- ==== Sys2Proof/Machine/Bits.lean ====
section
/-! DEFINITION. Bit sequences, numbers and bytes (00_scope.md R8 to R10), and their packing into 32-bit words (20_memory.md R68). -/
namespace Sys2Proof.Machine

/-- `zeros(n)` (00_scope.md R8). -/
def zeros (n : Nat) : Bits := List.replicate n false

/-- `s[i]`; past the end, which no rule asks for, it reads 0 (log 14). -/
def bitAt (s : Bits) (i : Nat) : Bool := s.getD i false

/-- `Bits_n(v)`: the low n bits of v, most significant first (00_scope.md R9). -/
def bitsOf (n v : Nat) : Bits :=
  match n with
  | 0 => []
  | k + 1 => v.testBit k :: bitsOf k v

/-- `Val(s)`: the number whose bits are s, most significant first (00_scope.md R9). -/
def valOf (s : Bits) : Nat := s.foldl (fun acc b => 2 * acc + b.toNat) 0

/-- The byte whose most significant bit is the first of eight (00_scope.md R10). -/
def byteOf (s : Bits) : Byte := BitVec.ofNat 8 (valOf s)

/-- `Bytes(s)` (00_scope.md R10). A tail of fewer than eight bits, to which no rule applies it, is dropped (log 12). -/
def bytesOf (s : Bits) : List Byte :=
  match s with
  | b0 :: b1 :: b2 :: b3 :: b4 :: b5 :: b6 :: b7 :: rest => byteOf [b0, b1, b2, b3, b4, b5, b6, b7] :: bytesOf rest
  | _ => []

/-- The 32 bits of a register, bit 31 first (20_memory.md R68). -/
def wordBits (w : Word) : Bits := bitsOf 32 w.toNat

/-- Word j of a sequence: its bits 32j .. 32j+31, the first in bit 31 (20_memory.md R68). -/
def wordAt (s : Bits) (j : Nat) : Word := BitVec.ofNat 32 (valOf ((s.drop (32 * j)).take 32))

/-- `ones(s)`, the number of one bits (43_bit_stuffing.md R182). -/
def ones (s : Bits) : Nat := s.countP id

end Sys2Proof.Machine
end

