-- ==== Sys2Proof/Machine/Assembly.lean ====
section
/-! DEFINITION. Frame assembly: constants, fit check, the five regions (44_frame_assembly.md). -/
namespace Sys2Proof.Machine

/-- PREAMBLE: 24 bits, 1 at even indices (10_state.md R37). -/
def preamble : Bits :=
  [true, false, true, false, true, false, true, false, true, false, true, false,
   true, false, true, false, true, false, true, false, true, false, true, false]

/-- FLAG, 01111110 (10_state.md R38). -/
def flag : Bits := [false, true, true, true, true, true, true, false]

/-- The fit check: 24 + 8 + L + 8 > 256 (44_frame_assembly.md R191). -/
def overflows (len : Nat) : Bool :=
  decide (Config.frameBits < Config.preambleBits + Config.flagBits + len + Config.flagBits)

/-- Assemble(t) (44_frame_assembly.md R192): preamble, flag, stuffed data, flag, zeros(216 - L). -/
def assemble (t : Bits) : Bits := preamble ++ flag ++ t ++ flag ++ zeros (Config.stuffBudget - t.length)

end Sys2Proof.Machine
end

