-- ==== Sys2Proof/Machine/Nrzi.lean ====
section
/-! DEFINITION. The NRZI line-code encoder (45_nrzi.md). -/
namespace Sys2Proof.Machine

/-- NrziStep: LAST XOR (1 - b), emitted and kept (45_nrzi.md R211). -/
def nrziStep (last b : Bool) : Bool := last ^^ !b

/-- The encoder from a given level (45_nrzi.md R211). -/
def nrziFrom (last : Bool) (f : Bits) : Bits :=
  match f with
  | [] => []
  | b :: rest => nrziStep last b :: nrziFrom (nrziStep last b) rest

/-- Nrzi(f) (45_nrzi.md R210): LAST starts at 0. -/
def nrzi (f : Bits) : Bits := nrziFrom false f

/-- The decoder from a given level (45_nrzi.md R213): 1 where the level does not change. -/
def unnrziFrom (last : Bool) (g : Bits) : Bits :=
  match g with
  | [] => []
  | b :: rest => (b == last) :: unnrziFrom b rest

/-- Unnrzi(g) (45_nrzi.md R213). Not part of the block: it states the source's round trip. -/
def unnrzi (g : Bits) : Bits := unnrziFrom false g

end Sys2Proof.Machine
end

