-- ==== Sys2Proof/Machine/State.lean ====
section
/-! DEFINITION. All the state of one instance of the block (10_state.md R20, 48_serial_engine.md R260), plain data. -/
namespace Sys2Proof.Machine

/-- The five error kinds; a model's error type has exactly these (60_exceptions.md R300). -/
inductive ErrorKind where
  | payloadFormatError
  | valueOutOfRangeError
  | frameOverflowError
  | assertionFailure
  | illcmd
  deriving DecidableEq, Repr

/-- STATUS (10_state.md R22); reserved bits 3:2 and 31:16 read 0 and are not stored. `err = none` is code 0. -/
structure Status where
  busy : Bool
  done : Bool
  err : Option ErrorKind
  errinfo : Byte
  deriving DecidableEq, Repr

/-- The host-visible registers (10_state.md R20, R22 to R30). PAYLEN, CRCVAL and STUFFLEN hold their defined bits; the
reserved bits above read 0 (20_memory.md R65). -/
structure HostRegs where
  status : Status
  mmsi : Word
  lat : Word
  lon : Word
  paylen : BitVec 8
  crcval : Half
  stufflen : BitVec 8
  /-- PAY0..PAY5; PAY5[23:0] stays 0 (10_state.md R29). -/
  pay : Vector Word 6
  /-- FRM0..FRM7 (10_state.md R30). -/
  frm : Vector Word 8
  deriving DecidableEq, Repr

/-- PENDING, the engine's command latch (10_state.md R35). -/
inductive Pending where
  | none
  | pack
  | frame
  | packframe
  | crc
  deriving DecidableEq, Repr

/-- PHASE, the region the sequencer is in (48_serial_engine.md R260). -/
inductive Phase where
  | idle
  | start
  | pre
  | sflag
  | data
  | fcs
  | eflag
  | pad
  deriving DecidableEq, Repr

/-- The working registers (10_state.md R32 to R34, 48_serial_engine.md R260): live during a command only. -/
structure Work where
  crc : Half
  run : Nat
  last : Bool
  cnt : Nat
  outidx : Nat
  slen : Nat
  pend : Bool
  sr : Vector Bool 256
  deriving DecidableEq, Repr

/-- The two descriptions of the engine (00_scope.md R6). -/
inductive Level where
  /-- Level F: one atomic completion (47_commands.md R237). -/
  | functional
  /-- Level S: one engine step per frame bit (48_serial_engine.md). -/
  | serial
  deriving DecidableEq, Repr

/-- The state of one instance. The fields from `level` on are the model's own, not the spec's (INVENTORY.md). -/
structure State where
  regs : HostRegs
  pending : Pending
  phase : Phase
  work : Work
  /-- DESIGN CHOICE (log 1): which description of R6 this instance's engine follows; nothing writes it. -/
  level : Level
  /-- DESIGN CHOICE (log 5): engine steps still to come before the completing step, at Level F. -/
  latency : Nat
  /-- DESIGN CHOICE (log 4): host turns still to come before the engine's next turn, while BUSY. -/
  hostTurns : Nat
  /-- DESIGN CHOICE (log 6): the counter the free values of Config are applied to. -/
  draws : Nat
  /-- DESIGN CHOICE (log 3): what the outside world does next, first one first. -/
  host : List HostOp
  /-- DESIGN CHOICE (log 18): the value the port returned for the last host read. -/
  rdata : Word
  deriving DecidableEq, Repr

/-- The stops of the machine that are faults. The block's own errors are not stops: they are entries into STATUS.ERR. -/
inductive Fault where
  /-- A host access at an offset outside 0x00..0x7C, which does not belong to the block (20_memory.md R64, U6).
  Raised by the host's turn in Machine/Bus.lean. Safe: the model stops. -/
  | outsideWindow
  deriving DecidableEq, Repr

/-- The refusals of the machine. -/
inductive Refusal where
  /-- An instruction of the table without a meaning yet; raised by exec's arms only. Safe. -/
  | notModelled (mnemonic : String)
  /-- A host access at an offset that is no multiple of 4 (20_memory.md R63). Raised by Machine/Bus.lean. Safe. -/
  | misaligned
  /-- A host access that is not four bytes wide (20_memory.md R63). Raised by Machine/Bus.lean. Safe. -/
  | unsupportedWidth
  deriving DecidableEq, Repr

/-- STATUS = 0x00000000 (10_state.md R40). -/
def resetStatus : Status := { busy := false, done := false, err := none, errinfo := 0#8 }

/-- The reset values of the host-visible registers (10_state.md R40, 70_reset_and_hazards.md R340). -/
def resetRegs : HostRegs :=
  { status := resetStatus
    mmsi := 0#32
    lat := 0#32
    lon := 0#32
    paylen := 0#8
    crcval := 0#16
    stufflen := 0#8
    pay := #v[0#32, 0#32, 0#32, 0#32, 0#32, 0#32]
    frm := #v[0#32, 0#32, 0#32, 0#32, 0#32, 0#32, 0#32, 0#32] }

/-- The spec gives the working registers no reset value (10_state.md R40): zeros, DESIGN CHOICE, unsafe (log 7). -/
def resetWork : Work :=
  { crc := 0#16, run := 0, last := false, cnt := 0, outidx := 0, slen := 0, pend := false, sr := Vector.replicate 256 false }

/-- The machine right after reset (10_state.md R40), nothing yet asked of it by the host. -/
def State.reset : State :=
  { regs := resetRegs
    pending := .none
    phase := .idle
    work := resetWork
    level := .functional
    latency := 0
    hostTurns := 0
    draws := 0
    host := []
    rdata := 0#32 }

end Sys2Proof.Machine
end

