-- ==== Sys2Proof/Machine/Flags.lean ====
section
/-! DEFINITION. The STATUS word (10_state.md R22), the error codes (60_exceptions.md R300), and every write to the status
fields that a rule makes: acceptance, success, error entry, clearing. -/
namespace Sys2Proof.Machine

/-- code(E) (60_exceptions.md R300). -/
def errCode (k : ErrorKind) : BitVec 4 :=
  match k with
  | .payloadFormatError => 1#4
  | .valueOutOfRangeError => 2#4
  | .frameOverflowError => 3#4
  | .assertionFailure => 4#4
  | .illcmd => 5#4

/-- STATUS[7:4], 0 = no error (10_state.md R22). -/
def errField (st : Status) : BitVec 4 :=
  match st.err with
  | none => 0#4
  | some k => errCode k

/-- STATUS as the host reads it (10_state.md R22): ERRINFO in 15:8, ERR in 7:4, DONE in 1, BUSY in 0, the rest 0. -/
def statusWord (st : Status) : Word :=
  (BitVec.ofBool st.busy).setWidth 32 ||| ((BitVec.ofBool st.done).setWidth 32 <<< 1)
    ||| ((errField st).setWidth 32 <<< 4) ||| (st.errinfo.setWidth 32 <<< 8)

/-- Acceptance of an engine command: BUSY <- 1, DONE <- 0 (47_commands.md R230). -/
def acceptStatus (st : Status) : Status := { st with busy := true, done := false }

/-- Completion without error: DONE <- 1, BUSY <- 0 (47_commands.md R237, 48_serial_engine.md R269). -/
def finishStatus (st : Status) : Status := { st with busy := false, done := true }

/-- Error entry (60_exceptions.md R308): ERR, ERRINFO written, DONE <- 0, BUSY <- 0. -/
def errorStatus (k : ErrorKind) (info : Byte) : Status := { busy := false, done := false, err := some k, errinfo := info }

/-- The codes CLRERR clears: 1, 2, 3, 5 (47_commands.md R236); code 4 is fatal (60_exceptions.md R312). -/
def clearable (k : ErrorKind) : Bool :=
  match k with
  | .payloadFormatError => true
  | .valueOutOfRangeError => true
  | .frameOverflowError => true
  | .assertionFailure => false
  | .illcmd => true

/-- CLRERR on the status (47_commands.md R236). -/
def clearStatus (st : Status) : Status :=
  match st.err with
  | none => st
  | some k => if clearable k then { st with err := none, errinfo := 0#8 } else st

end Sys2Proof.Machine
end

