-- ==== Sys2Proof/Machine/Operands.lean ====
section
/-! DEFINITION. The operands of the commands (30_encoding.md R106) and the views of the buffers (10_state.md R41). -/
namespace Sys2Proof.Machine

/-- `zext_32(MMSI)` (10_state.md R23). -/
abbrev mmsiVal (r : HostRegs) : Int := (r.mmsi.toNat : Int)

/-- `sext_32(LAT)` (10_state.md R24). -/
abbrev latVal (r : HostRegs) : Int := r.lat.toInt

/-- `sext_32(LON)` (10_state.md R25). -/
abbrev lonVal (r : HostRegs) : Int := r.lon.toInt

/-- `PAYLEN[7:0]`, zero-extended (10_state.md R26, 30_encoding.md R106). -/
abbrev paylenVal (r : HostRegs) : Nat := r.paylen.toNat

/-- `PAYBITS`, 168 bits: PAYBITS[32j + k] = PAYj[31 - k] (10_state.md R29). -/
def payBits (r : HostRegs) : Bits := (r.pay.toList.flatMap wordBits).take Config.payloadBits

/-- `FRMBITS`, 256 bits: FRMBITS[32j + k] = FRMj[31 - k] (10_state.md R30). -/
def frmBits (r : HostRegs) : Bits := r.frm.toList.flatMap wordBits

/-- The bits of PAY5 that are not reserved: PAY5[31:24] (10_state.md R29). -/
def pay5Mask : Word := 0xFF000000#32

/-- `PAY <- p`: the payload buffer holding p, PAY5[23:0] staying 0 (10_state.md R41). -/
def payOf (p : Bits) : Vector Word 6 :=
  #v[wordAt p 0, wordAt p 1, wordAt p 2, wordAt p 3, wordAt p 4, (byteOf ((p.drop 160).take 8)).setWidth 32 <<< 24]

/-- `FRM <- g`: the frame buffer holding g (10_state.md R41, 46_byte_packing.md R221). -/
def frmOf (g : Bits) : Vector Word 8 :=
  #v[wordAt g 0, wordAt g 1, wordAt g 2, wordAt g 3, wordAt g 4, wordAt g 5, wordAt g 6, wordAt g 7]

end Sys2Proof.Machine
end

