-- ==== Sys2Proof/Machine/Ops.lean ====
section
/-! DEFINITION. The operations the commands share: the error entry and the return from it (60_exceptions.md R308, R311),
acceptance (47_commands.md R230), completion (R237). -/
namespace Sys2Proof.Machine

/-- What a step of the machine answers. -/
abbrev Result := Host.Outcome State Fault Refusal

/-- ErrorEntry(E, info), the block's exception entry (60_exceptions.md R308): ERR, ERRINFO, DONE, BUSY and PENDING are
written, at Level S PHASE <- IDLE too (48_serial_engine.md R269); nothing is saved and nothing else changes. ILLCMD, which
is raised when BUSY = 0 already, uses the same entry (log 22). -/
def errorEntry (k : ErrorKind) (info : Byte) (s : State) : State :=
  { s with regs := { s.regs with status := errorStatus k info }, pending := .none, phase := .idle }

/-- The return from an error, CLRERR (60_exceptions.md R311, 47_commands.md R236): nothing was saved, nothing is restored. -/
def clearError (s : State) : State :=
  { s with regs := { s.regs with status := clearStatus s.regs.status } }

/-- Finish (48_serial_engine.md R269), the success half of Complete (47_commands.md R237). -/
def finish (s : State) : State :=
  { s with regs := { s.regs with status := finishStatus s.regs.status }, pending := .none, phase := .idle }

/-- Acceptance of an engine command (47_commands.md R230), at Level S with PHASE <- START. The engine steps before the
completing one and the host turns before the engine's first turn are free values (logs 4, 5). -/
def accept (op : Pending) (i : Instr) (s : State) : State :=
  { s with
    regs := { s.regs with status := acceptStatus s.regs.status }
    pending := op
    phase := .start
    latency := Config.latency i s.draws
    hostTurns := Config.hostBurst s.draws
    draws := s.draws + 1 }

/-- How the body of an engine command ends (47_commands.md R237): with its register writes done, or with `raise`, keeping
the writes of an already finished part only. -/
inductive BodyEnd where
  | done (s : State)
  | raised (kept : State) (kind : ErrorKind) (info : Byte)
  deriving DecidableEq, Repr

/-- Complete, Level F (47_commands.md R237): commit on success, error entry otherwise. -/
def complete (e : BodyEnd) : State :=
  match e with
  | .done t => finish t
  | .raised kept k info => errorEntry k info kept

end Sys2Proof.Machine
end

