-- ==== Sys2Proof/Machine/Packing.lean ====
section
/-! DEFINITION. Field packing and multiplexer (40_field_packing.md). -/
namespace Sys2Proof.Machine

/-- ScaleDeg (40_field_packing.md R130), done by the host outside the block, for the rational num/den degrees, den > 0:
the nearest integer to the exact product, an exact tie broken by ROUND_TIES (log 17). -/
def scaleDeg (num : Int) (den : Nat) : Int :=
  let low := (num * (Config.coordScale : Int)).fdiv den
  let rest := (num * (Config.coordScale : Int)) - low * den
  if 2 * rest < den then low
  else if 2 * rest > den then low + 1
  else if Config.tieUp low then low + 1 else low

/-- RangeBad[0]: the MMSI is outside [0, 2^30) (40_field_packing.md R131). -/
def mmsiBad (m : Int) : Bool := decide ((Config.mmsiLimit : Int) ≤ m)

/-- RangeBad[1]: the latitude is outside [-90, +90] degrees (40_field_packing.md R131). -/
def latBad (la : Int) : Bool := decide (la < -Config.latLimit) || decide (Config.latLimit < la)

/-- RangeBad[2]: the longitude is outside [-180, +180] degrees (40_field_packing.md R131). -/
def lonBad (lo : Int) : Bool := decide (lo < -Config.lonLimit) || decide (Config.lonLimit < lo)

/-- RangeBad(m, la, lo) (40_field_packing.md R131), a 3-bit mask as ERRINFO takes it (60_exceptions.md R302). -/
def rangeBad (m la lo : Int) : Byte :=
  (BitVec.ofBool (mmsiBad m)).setWidth 8 ||| ((BitVec.ofBool (latBad la)).setWidth 8 <<< 1)
    ||| ((BitVec.ofBool (lonBad lo)).setWidth 8 <<< 2)

/-- Field(v, n) = Bits_n(v mod 2^n) (40_field_packing.md R132). -/
def field (v : Int) (n : Nat) : Bits := bitsOf n (v % (2 ^ n : Nat)).toNat

/-- PackType1(m, lo, la) (40_field_packing.md R133): the sixteen fields of 30_encoding.md R94, longitude before latitude. -/
def packType1 (m lo la : Int) : Bits :=
  bitsOf 6 1
    ++ bitsOf 2 0
    ++ field m 30
    ++ bitsOf 4 Config.navStatus
    ++ bitsOf 8 0
    ++ bitsOf 10 0
    ++ bitsOf 1 0
    ++ field lo 28
    ++ field la 27
    ++ bitsOf 12 0
    ++ bitsOf 9 0
    ++ bitsOf 6 0
    ++ bitsOf 2 0
    ++ bitsOf 3 0
    ++ bitsOf 1 0
    ++ bitsOf 19 0

/-- DoPack (40_field_packing.md R136) under a range policy: the range check (R131; skipped under MASK, R135), then the
length self-check (R134), then PAY <- p, PAYLEN <- 168. -/
def doPack (policy : RangePolicy) (s : State) : BodyEnd :=
  let m := mmsiVal s.regs
  let la := latVal s.regs
  let lo := lonVal s.regs
  let bad := rangeBad m la lo
  if policy = .reject ∧ bad ≠ 0#8 then .raised s .valueOutOfRangeError bad
  else
    let p := packType1 m lo la
    if p.length ≠ Config.payloadBits then .raised s .assertionFailure 1#8
    else .done { s with regs := { s.regs with pay := payOf p, paylen := 168#8 } }

/-- The body of PACK (47_commands.md R232). -/
def packBody (s : State) : BodyEnd := doPack Config.rangePolicy s

end Sys2Proof.Machine
end

