-- ==== Sys2Proof/Machine/Crc.lean ====
section
/-! DEFINITION. The CRC-16/X-25 generator (41_crc.md). -/
namespace Sys2Proof.Machine

/-- One shift step of the reflected polynomial (41_crc.md R150). -/
def crcShift (c : Half) : Half :=
  if c.getLsbD 0 then (c >>> 1) ^^^ Config.crcPolyReflected else c >>> 1

/-- T[i]: eight shift steps on i (41_crc.md R150); the entries are listed in R151. -/
def crcTable (i : Byte) : Half :=
  crcShift (crcShift (crcShift (crcShift (crcShift (crcShift (crcShift (crcShift (i.setWidth 16))))))))

/-- One byte: CRC <- (CRC >> 8) XOR T[(CRC XOR b) & 0xFF] (41_crc.md R152). -/
def crcByte (crc : Half) (b : Byte) : Half := (crc >>> 8) ^^^ crcTable (crc.setWidth 8 ^^^ b)

/-- The CRC register after the bytes, before the final XOR (41_crc.md R152, 10_state.md R32). -/
def crcRegister (bs : List Byte) : Half := bs.foldl crcByte Config.crcInit

/-- Crc16X25(B) (41_crc.md R152). -/
def crc16X25 (bs : List Byte) : Half := crcRegister bs ^^^ Config.crcXorOut

/-- CrcField(c): the low byte, then the high byte, each most significant bit first (41_crc.md R154). -/
def crcField (c : Half) : Bits := bitsOf 8 (c.toNat % 256) ++ bitsOf 8 (c.toNat / 256)

/-- CrcBit(CRC, d): the generator as a shift register (41_crc.md R155). -/
def crcBit (crc : Half) (d : Bool) : Half :=
  if crc.getLsbD 0 != d then (crc >>> 1) ^^^ Config.crcPolyReflected else crc >>> 1

end Sys2Proof.Machine
end

