-- ==== Sys2Proof/Machine/Reversal.lean ====
section
/-! DEFINITION. Concatenation of payload and CRC, and the bit-reversal sorter (42_bit_reversal.md). -/
namespace Sys2Proof.Machine

/-- Data(p) = p ++ CrcField(Crc16X25(Bytes(p))) (42_bit_reversal.md R170). -/
def dataOf (p : Bits) : Bits := p ++ crcField (crc16X25 (bytesOf p))

/-- RevBytes(s): the bits of each byte reversed, byte order kept (42_bit_reversal.md R171). A tail of fewer than eight
bits, to which no rule applies it, is dropped (log 12). -/
def revBytes (s : Bits) : Bits :=
  match s with
  | b0 :: b1 :: b2 :: b3 :: b4 :: b5 :: b6 :: b7 :: rest => b7 :: b6 :: b5 :: b4 :: b3 :: b2 :: b1 :: b0 :: revBytes rest
  | _ => []

/-- TxData(p) = RevBytes(Data(p)) (42_bit_reversal.md R173). -/
def txData (p : Bits) : Bits := revBytes (dataOf p)

/-- The index of the payload bit that goes out i-th: 8 (i div 8) + 7 - (i mod 8) (42_bit_reversal.md R172, R173). -/
def revIndex (i : Nat) : Nat := 8 * (i / 8) + 7 - i % 8

end Sys2Proof.Machine
end

