-- ==== Sys2Proof/Machine/Stuffing.lean ====
section
/-! DEFINITION. The bit-stuffing engine (43_bit_stuffing.md). -/
namespace Sys2Proof.Machine

/-- StuffStep(RUN, b): the bits emitted and the new RUN (43_bit_stuffing.md R181). -/
def stuffStep (run : Nat) (b : Bool) : Bits × Nat :=
  if b then (if run + 1 = Config.stuffRun then ([true, false], 0) else ([true], run + 1)) else ([false], 0)

/-- Zero insertion from a given run count (43_bit_stuffing.md R180, R181). -/
def stuffFrom (run : Nat) (s : Bits) : Bits :=
  match s with
  | [] => []
  | b :: rest => (stuffStep run b).1 ++ stuffFrom (stuffStep run b).2 rest

/-- Stuff(s) (43_bit_stuffing.md R180): RUN starts at 0. -/
def stuff (s : Bits) : Bits := stuffFrom 0 s

/-- RUN after the bits of s (43_bit_stuffing.md R181, 10_state.md R33). -/
def runAfter (run : Nat) (s : Bits) : Nat :=
  match s with
  | [] => run
  | b :: rest => runAfter (stuffStep run b).2 rest

/-- De-stuffing from a given run count; `skip` says that the next bit is a stuffed one (43_bit_stuffing.md R184). -/
def destuffFrom (run : Nat) (skip : Bool) (t : Bits) : Bits :=
  match t with
  | [] => []
  | b :: rest =>
    if skip then destuffFrom 0 false rest
    else if b then (if run + 1 = Config.stuffRun then b :: destuffFrom 0 true rest else b :: destuffFrom (run + 1) false rest)
    else b :: destuffFrom 0 false rest

/-- Destuff(t) (43_bit_stuffing.md R184). Not part of the block: it states the source's reversibility. -/
def destuff (t : Bits) : Bits := destuffFrom 0 false t

end Sys2Proof.Machine
end

