-- ==== Sys2Proof/Machine/Framing.lean ====
section
/-! DEFINITION. FrameEncode (47_commands.md R238), byte packing (46_byte_packing.md), and the bodies of FRAME, PACKFRAME
and CRC (47_commands.md R233 to R235). -/
namespace Sys2Proof.Machine

/-- `raise E(info)` inside a function (00_scope.md R11). -/
structure Raise where
  kind : ErrorKind
  info : Byte
  deriving DecidableEq, Repr

/-- What FrameEncode returns (47_commands.md R238). -/
structure Framed where
  coded : Bits
  crcValue : Half
  stuffedLength : Nat
  deriving DecidableEq, Repr

/-- FrameEncode(p) (47_commands.md R238), step by step. -/
def frameEncode (p : Bits) : Except Raise Framed :=
  let c := crc16X25 (bytesOf p)
  let d := p ++ crcField c
  let r := revBytes d
  let t := stuff r
  if overflows t.length then .error { kind := .frameOverflowError, info := BitVec.ofNat 8 t.length }
  else
    let f := assemble t
    if f.length ≠ Config.frameBits then .error { kind := .assertionFailure, info := 2#8 }
    else .ok { coded := nrzi f, crcValue := c, stuffedLength := t.length }

/-- PackBytes(g) (46_byte_packing.md R220). -/
def packBytes (g : Bits) : List Byte := bytesOf g

/-- The 32-byte output buffer as the host reads it from FRM0..FRM7 (46_byte_packing.md R221, R222). -/
def frameBuffer (r : HostRegs) : List Byte := packBytes (frmBits r)

/-- What framing a payload leaves in CRC, RUN and LAST (10_state.md R32 to R34); no rule reads them afterwards (log 13). -/
def framedWork (p : Bits) (w : Work) : Work :=
  { w with
    crc := crcRegister (bytesOf p)
    run := runAfter 0 (txData p)
    last := (nrzi (assemble (stuff (txData p)))).getLastD false }

/-- The body of FRAME (47_commands.md R233). -/
def frameBody (s : State) : BodyEnd :=
  if paylenVal s.regs ≠ Config.payloadBits then .raised s .payloadFormatError s.regs.paylen
  else
    match frameEncode (payBits s.regs) with
    | .error e => .raised s e.kind e.info
    | .ok f =>
      .done { s with
        regs := { s.regs with
          frm := frmOf f.coded
          crcval := f.crcValue
          stufflen := BitVec.ofNat 8 f.stuffedLength }
        work := framedWork (payBits s.regs) s.work }

/-- The body of PACKFRAME (47_commands.md R234): the body of PACK, whose writes are kept, then the body of FRAME. -/
def packframeBody (s : State) : BodyEnd :=
  match packBody s with
  | .raised kept k info => .raised kept k info
  | .done packed => frameBody packed

/-- The length test of the CRC command (47_commands.md R235). -/
def crcLengthBad (n : Nat) : Bool := (n % 8 != 0) || decide (Config.payloadBits < n)

/-- The bytes the CRC command covers: Bytes(PAYBITS[0..PAYLEN)) (47_commands.md R235). -/
def crcInput (r : HostRegs) : List Byte := bytesOf ((payBits r).take (paylenVal r))

/-- The body of CRC (47_commands.md R235). -/
def crcBody (s : State) : BodyEnd :=
  if crcLengthBad (paylenVal s.regs) then .raised s .payloadFormatError s.regs.paylen
  else
    .done { s with
      regs := { s.regs with crcval := crc16X25 (crcInput s.regs) }
      work := { s.work with crc := crcRegister (crcInput s.regs) } }

/-- The body of the command in the latch (47_commands.md R237). -/
def pendingBody (op : Pending) (s : State) : BodyEnd :=
  match op with
  | .none => .done s
  | .pack => packBody s
  | .frame => frameBody s
  | .packframe => packframeBody s
  | .crc => crcBody s

end Sys2Proof.Machine
end

