-- ==== Sys2Proof/Machine/Serial.lean ====
section
/-! DEFINITION. Level S: the bit-serial engine, one engine step at a time (48_serial_engine.md). -/
namespace Sys2Proof.Machine

/-- The registers START sets (48_serial_engine.md R261). -/
def startWork (w : Work) : Work :=
  { w with crc := Config.crcInit, run := 0, last := false, pend := false, cnt := 0, outidx := 0, slen := 0 }

/-- The stuffing half of Emit(b, isdata) (48_serial_engine.md R262): RUN and PEND, touched by data bits only. -/
def emitRun (b isdata : Bool) (w : Work) : Work :=
  if isdata then
    (if b then (if w.run = 4 then { w with run := 0, pend := true } else { w with run := w.run + 1 })
     else { w with run := 0 })
  else w

/-- The line-code half of Emit(b, isdata) (48_serial_engine.md R262): LAST, SR and OUTIDX; bits beyond the frame are
counted, not stored. -/
def emitLine (b : Bool) (w : Work) : Work :=
  { w with
    last := nrziStep w.last b
    sr := w.sr.setIfInBounds w.outidx (nrziStep w.last b)
    outidx := w.outidx + 1 }

/-- Emit(b, isdata) (48_serial_engine.md R262). -/
def emit (b isdata : Bool) (w : Work) : Work := emitLine b (emitRun b isdata w)

/-- The PEND step: the owed zero, and nothing else (48_serial_engine.md R263). -/
def pendWork (w : Work) : Work := emit false false { w with pend := false, slen := w.slen + 1 }

/-- CNT <- CNT + 1, and at the limit on to the next region with CNT <- 0 (48_serial_engine.md R264 to R268). -/
def countTo (limit : Nat) (after : Phase) (w : Work) (s : State) : State :=
  if w.cnt + 1 = limit then { s with phase := after, work := { w with cnt := 0 } }
  else { s with work := { w with cnt := w.cnt + 1 } }

/-- START for FRAME and PACKFRAME, after the PACK part if any (48_serial_engine.md R261). -/
def startFraming (s : State) : State :=
  if paylenVal s.regs ≠ Config.payloadBits then errorEntry .payloadFormatError s.regs.paylen s
  else { s with phase := .pre, work := startWork s.work }

/-- The end of the CRC command (48_serial_engine.md R270): CRCVAL <- CRC XOR 0xFFFF; Finish. -/
def finishCrc (s : State) : State :=
  finish { s with regs := { s.regs with crcval := s.work.crc ^^^ Config.crcXorOut } }

/-- START for CRC (48_serial_engine.md R261, R270). -/
def startCrc (s : State) : State :=
  if crcLengthBad (paylenVal s.regs) then errorEntry .payloadFormatError s.regs.paylen s
  else if paylenVal s.regs = 0 then finishCrc { s with work := startWork s.work }
  else { s with phase := .data, work := startWork s.work }

/-- StartStep (48_serial_engine.md R261). -/
def startStep (s : State) : State :=
  match s.pending with
  | .none => s
  | .pack => complete (packBody s)
  | .packframe =>
    match packBody s with
    | .raised kept k info => errorEntry k info kept
    | .done packed => startFraming packed
  | .frame => startFraming s
  | .crc => startCrc s

/-- PRE step (48_serial_engine.md R264). -/
def preStep (s : State) : State := countTo Config.preambleBits .sflag (emit (s.work.cnt % 2 == 0) false s.work) s

/-- SFLAG step (48_serial_engine.md R265). -/
def sflagStep (s : State) : State := countTo Config.flagBits .data (emit (bitAt flag s.work.cnt) false s.work) s

/-- The payload bit of a DATA step, read through the bit-reversal addressing (48_serial_engine.md R266). -/
def dataBit (s : State) : Bool := bitAt (payBits s.regs) (revIndex s.work.cnt)

/-- DATA step of FRAME and PACKFRAME (48_serial_engine.md R266). -/
def dataStep (s : State) : State :=
  countTo Config.payloadBits .fcs
    (emit (dataBit s) true { s.work with crc := crcBit s.work.crc (dataBit s), slen := s.work.slen + 1 }) s

/-- DATA step of the CRC command (48_serial_engine.md R266, R270): no SLEN, no Emit; the last one finishes. -/
def crcDataStep (s : State) : State :=
  let t := { s with work := { s.work with crc := crcBit s.work.crc (dataBit s), cnt := s.work.cnt + 1 } }
  if s.work.cnt + 1 = paylenVal s.regs then finishCrc t else t

/-- FCS step: the complement of the CRC register, least significant bit first (48_serial_engine.md R267). -/
def fcsStep (s : State) : State :=
  countTo Config.crcBits .eflag
    (emit (!s.work.crc.getLsbD s.work.cnt) true { s.work with slen := s.work.slen + 1 }) s

/-- EFLAG step (48_serial_engine.md R268). -/
def eflagStep (s : State) : State := countTo Config.flagBits .pad (emit (bitAt flag s.work.cnt) false s.work) s

/-- PAD step and the end of a framing command (48_serial_engine.md R269). -/
def padStep (s : State) : State :=
  if s.work.outidx > Config.frameBits then errorEntry .frameOverflowError (BitVec.ofNat 8 s.work.slen) s
  else if s.work.outidx = Config.frameBits then
    finish { s with regs := { s.regs with
      frm := frmOf s.work.sr.toList
      crcval := s.work.crc ^^^ Config.crcXorOut
      stufflen := BitVec.ofNat 8 s.work.slen } }
  else { s with work := emit false false s.work }

/-- The step of the phase PHASE is in, PEND being 0 (48_serial_engine.md R264 to R270). -/
def phaseStep (s : State) : State :=
  match s.phase with
  | .idle => s
  | .start => startStep s
  | .pre => preStep s
  | .sflag => sflagStep s
  | .data => if s.pending = .crc then crcDataStep s else dataStep s
  | .fcs => fcsStep s
  | .eflag => eflagStep s
  | .pad => padStep s

/-- One engine step at Level S. The PEND step has priority over the phases that emit (48_serial_engine.md R263), not over
START, which clears PEND (R261; log 15). -/
def serialStep (s : State) : State :=
  if s.phase ≠ .idle ∧ s.phase ≠ .start ∧ s.work.pend = true then { s with work := pendWork s.work }
  else phaseStep s

end Sys2Proof.Machine
end

