-- ==== Sys2Proof/Machine/Engine.lean ====
section
/-! DEFINITION. The engine commands: PACK, FRAME, PACKFRAME, CRC (47_commands.md R230, R232 to R237). -/
namespace Sys2Proof.Machine

/-- One engine step of the command in the latch: at Level F the completion after the free number of steps that change
nothing (47_commands.md R237, log 5), at Level S one serial step (48_serial_engine.md). -/
def engineStep (body : State → BodyEnd) (s : State) : State :=
  match s.level with
  | .functional => if s.latency = 0 then complete (body s) else { s with latency := s.latency - 1 }
  | .serial => serialStep s

/-- What an engine command does, in the order of 47_commands.md R230 (log 2). While the engine runs this very command: an
engine step of it. While it runs another one: nothing, a command written then is dropped. With an error pending: nothing,
the command is refused. Otherwise it is accepted. -/
def engineCommand (op : Pending) (i : Instr) (body : State → BodyEnd) (s : State) : Result :=
  if s.regs.status.busy then
    (if s.pending = op then .next (engineStep body s) else .next s)
  else if s.regs.status.err ≠ none then .next s
  else .next (accept op i s)

/-- PACK (47_commands.md R232). -/
def execPack (s : State) : Result := engineCommand .pack .pack packBody s

/-- FRAME (47_commands.md R233). -/
def execFrame (s : State) : Result := engineCommand .frame .frame frameBody s

/-- PACKFRAME (47_commands.md R234). -/
def execPackframe (s : State) : Result := engineCommand .packframe .packframe packframeBody s

/-- CRC (47_commands.md R235). -/
def execCrc (s : State) : Result := engineCommand .crc .crc crcBody s

end Sys2Proof.Machine
end

