-- ==== Sys2Proof/Machine/Immediate.lean ====
section
/-! DEFINITION. The immediate commands: NOP and CLRERR (47_commands.md R231, R236). -/
namespace Sys2Proof.Machine

/-- NOP: no state change of any kind, accepted, refused or dropped alike (47_commands.md R231). -/
def execNop (s : State) : Result := .next s

/-- CLRERR (47_commands.md R236): clears codes 1, 2, 3 and 5; while BUSY = 1 it is dropped like every write (R230). -/
def execClrerr (s : State) : Result :=
  if s.regs.status.busy then .next s else .next (clearError s)

end Sys2Proof.Machine
end

