-- ==== Sys2Proof/Machine/Dispatch.lean ====
section
/-! DEFINITION. One arm per command. -/
namespace Sys2Proof.Machine

def exec (i : Instr) (s : State) : Host.Outcome State Fault Refusal :=
  match i with
  | .nop => Sys2Proof.Machine.execNop s
  | .pack => Sys2Proof.Machine.execPack s
  | .frame => Sys2Proof.Machine.execFrame s
  | .packframe => Sys2Proof.Machine.execPackframe s
  | .crc => Sys2Proof.Machine.execCrc s
  | .clrerr => Sys2Proof.Machine.execClrerr s

end Sys2Proof.Machine
end

