-- ==== Sys2Proof/Machine/Port.lean ====
section
/-! DEFINITION. The register map (10_state.md R20) and the host's reads and operand writes (20_memory.md R61, R62). -/
namespace Sys2Proof.Machine

/-- The register map: what stands at a word location (10_state.md R20). -/
inductive Reg where
  | cmd
  | status
  | mmsi
  | lat
  | lon
  | paylen
  | crcval
  | stufflen
  | pay (j : Fin 6)
  | frm (j : Fin 8)
  | unmapped
  deriving DecidableEq, Repr

/-- The register at a byte offset from BASE (10_state.md R20, 20_memory.md R64). -/
def regAt (off : Nat) : Reg :=
  match off with
  | 0x00 => .cmd
  | 0x04 => .status
  | 0x08 => .mmsi
  | 0x0C => .lat
  | 0x10 => .lon
  | 0x14 => .paylen
  | 0x18 => .crcval
  | 0x1C => .stufflen
  | 0x20 => .pay 0
  | 0x24 => .pay 1
  | 0x28 => .pay 2
  | 0x2C => .pay 3
  | 0x30 => .pay 4
  | 0x34 => .pay 5
  | 0x40 => .frm 0
  | 0x44 => .frm 1
  | 0x48 => .frm 2
  | 0x4C => .frm 3
  | 0x50 => .frm 4
  | 0x54 => .frm 5
  | 0x58 => .frm 6
  | 0x5C => .frm 7
  | _ => .unmapped

/-- The offset in the window of an address in the host's address space, BASE being the window's first byte (00_scope.md R5,
20_memory.md R60; log 16). -/
def offsetOf (addr : Nat) : Option Nat :=
  if Config.base ≤ addr ∧ addr < Config.base + 128 then some (addr - Config.base) else none

/-- The value of a register, reserved bits as 0 (20_memory.md R61, R65). -/
def regValue (g : Reg) (r : HostRegs) : Word :=
  match g with
  | .cmd => 0#32
  | .status => statusWord r.status
  | .mmsi => r.mmsi
  | .lat => r.lat
  | .lon => r.lon
  | .paylen => r.paylen.setWidth 32
  | .crcval => r.crcval.setWidth 32
  | .stufflen => r.stufflen.setWidth 32
  | .pay j => if j = 5 then r.pay[j] &&& pay5Mask else r.pay[j]
  | .frm j => r.frm[j]
  | .unmapped => 0#32

/-- The registers a host read answers exactly in every state (20_memory.md R61, R64). -/
def readsAlways (g : Reg) : Bool :=
  match g with
  | .cmd => true
  | .status => true
  | .unmapped => true
  | _ => false

/-- RegRead(off) (20_memory.md R61): while BUSY = 1 a data register reads as a free value (R72, log 6). -/
def regRead (off : Nat) (s : State) : Word :=
  if s.regs.status.busy ∧ readsAlways (regAt off) = false then Config.busyRead s.draws
  else regValue (regAt off) s.regs

/-- RegWrite(off, v) on everything but CMD, BUSY being 0 (20_memory.md R62): STATUS, the result registers and unmapped
locations ignore it. -/
def writeReg (g : Reg) (v : Word) (r : HostRegs) : HostRegs :=
  match g with
  | .mmsi => { r with mmsi := v }
  | .lat => { r with lat := v }
  | .lon => { r with lon := v }
  | .paylen => { r with paylen := v.setWidth 8 }
  | .pay j => { r with pay := r.pay.set j (if j = 5 then v &&& pay5Mask else v) }
  | .cmd => r
  | .status => r
  | .crcval => r
  | .stufflen => r
  | .frm _ => r
  | .unmapped => r

end Sys2Proof.Machine
end

