-- ==== Sys2Proof/WellFormed.lean ====
section
/-! DEFINITION. Which commands and which host operations are well-formed. -/
namespace Sys2Proof

/-- A command has no operand field that could be out of range (30_encoding.md R90): each of the six is well-formed. -/
def Instr.wf (i : Instr) : Bool :=
  match i with
  | .nop => true
  | .pack => true
  | .frame => true
  | .packframe => true
  | .crc => true
  | .clrerr => true

/-- The 32 word locations of the register space: byte offsets 0x00 to 0x7C (20_memory.md R60). -/
def inWindow (off : Nat) : Bool := off < 128

/-- The one access width: four bytes (20_memory.md R63). -/
def widthOk (width : Nat) : Bool := width == 4

/-- Natural alignment: off mod 4 = 0 (20_memory.md R63). -/
def aligned (off : Nat) : Bool := off % 4 == 0

/-- An access the block defines: inside the window, four bytes wide, aligned (20_memory.md R63, R64). -/
def accessOk (off width : Nat) : Bool := inWindow off && widthOk width && aligned off

/-- A host operation the block gives a meaning to. -/
def HostOp.wf (op : HostOp) : Bool :=
  match op with
  | .write off width _ => accessOk off width
  | .read off width => accessOk off width
  | .poll => true
  | .reset => true

end Sys2Proof
end

