-- ==== Sys2Proof/Machine/Bus.lean ====
section
/-! DEFINITION. The host's turn: a bus transaction, a poll or reset (20_memory.md R61 to R64, 47_commands.md R230,
70_reset_and_hazards.md R340). -/
namespace Sys2Proof.Machine

/-- Issue(w), BUSY being 0 (47_commands.md R230): a legal word is the command's; an illegal one raises ILLCMD, or is
refused while an error is pending (60_exceptions.md R305, R310). -/
def issue (w : Word) (s : State) : Result :=
  match decode w with
  | .ok i => exec i s
  | .error _ =>
    if s.regs.status.err ≠ none then .next s
    else .next (errorEntry .illcmd (w.setWidth 8) s)

/-- RegWrite(off, v) (20_memory.md R62): dropped while BUSY = 1, an issue at CMD, an operand write elsewhere. -/
def regWrite (off : Nat) (v : Word) (s : State) : Result :=
  if s.regs.status.busy then .next s
  else if regAt off = .cmd then issue v s
  else .next { s with regs := writeReg (regAt off) v s.regs }

/-- A host read of the offset: the port returns RegRead(off); no register changes (20_memory.md R61, R66). A read that
is a free draw uses up a value of the counter (log 6). -/
def hostRead (off : Nat) (s : State) : State :=
  { s with
    rdata := regRead off s
    draws := if s.regs.status.busy ∧ readsAlways (regAt off) = false then s.draws + 1 else s.draws }

/-- The access the block defines goes on; any other stops by name (20_memory.md R63, R64; log 11). -/
def checked (off width : Nat) (go : Result) : Result :=
  if inWindow off = false then .fault .outsideWindow
  else if widthOk width = false then .refused .unsupportedWidth
  else if aligned off = false then .refused .misaligned
  else go

/-- What the reset input leaves in the working registers, within their widths: unspecified, so free values
(70_reset_and_hazards.md R340, 48_serial_engine.md R260; log 7). -/
def freeWork (d : Nat) : Work :=
  { crc := BitVec.ofNat 16 (Config.freeNat d)
    run := Config.freeNat (d + 1) % 8
    last := Config.freeNat (d + 2) % 2 == 1
    cnt := Config.freeNat (d + 3) % 256
    outidx := Config.freeNat (d + 4) % 512
    slen := Config.freeNat (d + 5) % 256
    pend := Config.freeNat (d + 6) % 2 == 1
    sr := Config.freeBits d }

/-- Reset, in any state whatever (70_reset_and_hazards.md R340, R341). What the outside world does next, and which
description the engine follows, are not the block's state and stay. -/
def applyReset (s : State) : State :=
  { s with
    regs := resetRegs
    pending := .none
    phase := .idle
    work := freeWork s.draws
    draws := s.draws + 7 }

/-- One host operation (00_scope.md R7). A poll reads STATUS and stays in front until it reads BUSY = 0 (30_encoding.md
R107, WAIT; log 20). -/
def hostOp (op : HostOp) (s : State) : Result :=
  match op with
  | .write off width v => checked off width (regWrite off v s)
  | .read off width => checked off width (.next (hostRead off s))
  | .poll =>
    if s.regs.status.busy then .next { hostRead 0x04 s with host := .poll :: s.host }
    else .next (hostRead 0x04 s)
  | .reset => .next (applyReset s)

/-- The state in which the first host operation has been taken from the queue. -/
def takeHost (s : State) : State := { s with host := s.host.tail, hostTurns := s.hostTurns - 1 }

/-- The host's turn. -/
def hostTurn (s : State) : Result :=
  match s.host with
  | [] => .next s
  | op :: _ => hostOp op (takeHost s)

end Sys2Proof.Machine
end

