-- ==== Sys2Proof/Machine/Schedule.lean ====
section
/-! DEFINITION. Who moves next (00_scope.md R7): host steps and engine steps interleave in any order, and every accepted
command completes (47_commands.md R237). -/
namespace Sys2Proof.Machine

/-- The agents that take a step; reset comes through the host's queue. -/
inductive Agent where
  | host
  | engine
  | nobody
  deriving DecidableEq, Repr

/-- While BUSY the engine's turn comes after the free number of host turns (log 4); idle, the block waits for the host
(60_exceptions.md R320). -/
def nextAgent (s : State) : Agent :=
  if s.regs.status.busy then (if s.host.isEmpty || s.hostTurns == 0 then .engine else .host)
  else if s.host.isEmpty then .nobody
  else .host

/-- The command in the latch (10_state.md R35). -/
def pendingInstr (op : Pending) : Option Instr :=
  match op with
  | .none => none
  | .pack => some .pack
  | .frame => some .frame
  | .packframe => some .packframe
  | .crc => some .crc

/-- The state in which the engine has been given its turn: how many host turns come before its next one is drawn anew. -/
def giveEngine (s : State) : State := { s with hostTurns := Config.hostBurst s.draws, draws := s.draws + 1 }

/-- The engine's turn: a step of the command in the latch. -/
def engineTurn (s : State) : Result :=
  match pendingInstr s.pending with
  | none => .next (giveEngine s)
  | some i => exec i (giveEngine s)

/-- One step of the block with its surroundings: the host's turn, the engine's turn, or nothing. -/
def turn (s : State) : Result :=
  match nextAgent s with
  | .host => hostTurn s
  | .engine => engineTurn s
  | .nobody => .next s

/-- The bus transaction that brings a command word to CMD (30_encoding.md R107). -/
def commandWrite (w : Word) : HostOp := .write 0x00 4 w

/-- The state in which the host's next turn is the write of `w` to CMD and the engine is not running a command, so that
the write is not dropped (20_memory.md R62; log 21). -/
def presentCommand (s : State) (w : Word) : State :=
  { s with
    regs := { s.regs with status := { s.regs.status with busy := false } }
    pending := .none
    phase := .idle
    host := commandWrite w :: s.host }

end Sys2Proof.Machine
end

