-- ==== Sys2Proof/Machine/Step.lean ====
section
/-! DEFINITION. One step of the machine (00_scope.md R7), and where a command word stands when it is the next to run. -/
namespace Sys2Proof.Machine

/-- One step: the host's turn, the engine's turn, or, with nothing to do, no change (Machine/Schedule.lean). -/
def step (s : State) : Host.Outcome State Fault Refusal := turn s

/-- `s` with the command word of those bits as the host's next write to CMD, the engine idle: the block fetches no
instructions, a command comes by a host write (10_state.md R31, 47_commands.md R230; logs 3, 21). -/
def State.withFetchWord (s : State) (nbits w : Nat) : State :=
  match tableWord nbits w with
  | none => s
  | some v => presentCommand s v

end Sys2Proof.Machine
end

