-- ==== Sys2Proof/Machine/HostProgram.lean ====
section
/-! DEFINITION. The host's program lines and pseudo-operations as bus transactions (30_encoding.md R107), and several
instances side by side (20_memory.md R75). -/
namespace Sys2Proof.Machine

/-- WR reg, value. -/
def wr (off : Nat) (v : Word) : List HostOp := [.write off 4 v]

/-- RD reg. -/
def rd (off : Nat) : List HostOp := [.read off 4]

/-- CMD mnemonic. -/
def cmd (i : Instr) : List HostOp := [commandWrite (encode i)]

/-- WAIT. -/
def wait : List HostOp := [.poll]

/-- LOADPAY w0, ..., w5. -/
def loadPay (w0 w1 w2 w3 w4 w5 : Word) : List HostOp :=
  wr 0x20 w0 ++ wr 0x24 w1 ++ wr 0x28 w2 ++ wr 0x2C w3 ++ wr 0x30 w4 ++ wr 0x34 w5 ++ wr 0x14 168#32

/-- ENCODE m, la, lo. -/
def encodeReport (m la lo : Word) : List HostOp :=
  wr 0x08 m ++ wr 0x0C la ++ wr 0x10 lo ++ cmd .packframe ++ wait

/-- The state with a host program loaded (log 3). -/
def withProgram (s : State) (p : List HostOp) : State := { s with host := p }

/-- A step of instance k of several (20_memory.md R75): the other instances are as they were. -/
def turnAt (k : Nat) (ms : List State) : Host.Outcome (List State) Fault Refusal :=
  match ms[k]? with
  | none => .next ms
  | some s =>
    match turn s with
    | .next t => .next (ms.set k t)
    | .fault f => .fault f
    | .refused r => .refused r

end Sys2Proof.Machine
end

