-- ==== Sys2Proof/Safety.lean ====
section
/-! DEFINITION. What the statements are said in: conditions on states, the two ways a command ends, runs, and the
invariant of the machine (10_state.md R22, R29, R35; 60_exceptions.md R300 to R304; 48_serial_engine.md R260, R273). -/
namespace Sys2Proof.Machine

/-- The next thing the host does is `op`, and the host moves next: the block is idle, or the engine's turn has not come. -/
abbrev HostNext (s : State) (op : HostOp) (rest : List HostOp) : Prop :=
  s.host = op :: rest ∧ (s.regs.status.busy = false ∨ s.hostTurns ≠ 0)

/-- The engine moves next: it runs a command, and the host has nothing to do or no turn left. -/
abbrev EngineNext (s : State) : Prop := s.regs.status.busy = true ∧ (s.host = [] ∨ s.hostTurns = 0)

/-- The step is the reset input: it is the host's next operation and the host moves next. -/
abbrev ResetTurn (s : State) : Prop :=
  s.host.head? = some .reset ∧ (s.regs.status.busy = false ∨ s.hostTurns ≠ 0)

/-- `s` with its first host operation taken. -/
abbrev afterHost (s : State) (rest : List HostOp) : State := { s with host := rest, hostTurns := s.hostTurns - 1 }

/-- The engine is at the completing step of `op`, Level F (47_commands.md R237). -/
abbrev Completing (s : State) (op : Pending) : Prop :=
  s.regs.status.busy = true ∧ s.pending = op ∧ s.level = .functional ∧ s.latency = 0

/-- The operands of PACK are in their domains (40_field_packing.md R131): both ends of the coordinate ranges are in. -/
abbrev OperandsInRange (r : HostRegs) : Prop :=
  r.mmsi.toNat < 2 ^ 30 ∧ (-54000000 ≤ r.lat.toInt ∧ r.lat.toInt ≤ 54000000)
    ∧ (-108000000 ≤ r.lon.toInt ∧ r.lon.toInt ≤ 108000000)

/-- The payload that PACK makes of the operand registers (40_field_packing.md R133). -/
abbrev packed (r : HostRegs) : Bits := packType1 (r.mmsi.toNat : Int) r.lon.toInt r.lat.toInt

/-- The stuffed length of a payload (43_bit_stuffing.md R182). -/
abbrev stuffedLength (p : Bits) : Nat := (stuff (txData p)).length

/-- The coded frame of a payload whose stuffed data fits (47_commands.md R238). -/
abbrev codedFrame (p : Bits) : Bits := nrzi (assemble (stuff (txData p)))

/-- How a command that succeeds leaves the machine (47_commands.md R237): these registers and working registers, DONE = 1,
BUSY = 0, no command in the latch, everything else as it was. -/
def succeeded (s : State) (r : HostRegs) (w : Work) : State :=
  { s with
    regs := { r with status := { busy := false, done := true, err := s.regs.status.err, errinfo := s.regs.status.errinfo } }
    pending := .none
    phase := .idle
    work := w }

/-- How an error leaves the machine (60_exceptions.md R308, R309): STATUS holds the code and the information, DONE = 0,
BUSY = 0, no command in the latch, everything else as it was. -/
def failed (s : State) (k : ErrorKind) (info : Byte) : State :=
  { s with
    regs := { s.regs with status := { busy := false, done := false, err := some k, errinfo := info } }
    pending := .none
    phase := .idle }

/-- `k` steps from `s` lead to `t`. -/
abbrev Runs (k : Nat) (s t : State) : Prop := Host.Core.run Sys2Proof.core k s = .next t

/-- STATUS in every reachable state (10_state.md R22). -/
abbrev StatusOk (st : Status) : Prop :=
  (st.busy = true → st.done = false ∧ st.err = none)
    ∧ (st.err ≠ none → st.done = false ∧ st.busy = false)
    ∧ (st.err = none → st.errinfo = 0#8)

/-- The latch is empty exactly when BUSY = 0 (10_state.md R35), and PHASE is IDLE exactly then (48_serial_engine.md R260);
an engine of Level F stays at START until it completes. -/
abbrev LatchOk (s : State) : Prop :=
  (s.pending = .none ↔ s.regs.status.busy = false) ∧ (s.phase = .idle ↔ s.pending = .none)
    ∧ (s.level = .functional → s.phase = .idle ∨ s.phase = .start)

/-- PAY5[23:0] is 0 (10_state.md R29), and STUFFLEN is its reset value or lies in 184..216 (10_state.md R28). -/
abbrev RegistersOk (r : HostRegs) : Prop :=
  r.pay[5] &&& 0x00FFFFFF#32 = 0#32 ∧ (r.stufflen = 0#8 ∨ (184 ≤ r.stufflen.toNat ∧ r.stufflen.toNat ≤ 216))

/-- What each error code records (60_exceptions.md R300 to R304): AssertionFailure does not occur. -/
abbrev ErrorOk (st : Status) : Prop :=
  st.err ≠ some .assertionFailure
    ∧ (st.err = some .payloadFormatError → st.errinfo ≠ 168#8)
    ∧ (st.err = some .valueOutOfRangeError → 1 ≤ st.errinfo.toNat ∧ st.errinfo.toNat ≤ 7)
    ∧ (st.err = some .frameOverflowError → 217 ≤ st.errinfo.toNat ∧ st.errinfo.toNat ≤ 220)

/-- The stuffing engine after `d` data bits at Level S (43_bit_stuffing.md R182, 48_serial_engine.md R273): RUN is at most 4,
an owed zero goes with RUN = 0, SLEN counts the data bits and the zeros sent, and every zero, sent or owed, took five ones. -/
def StuffCount (w : Work) (d : Nat) : Prop :=
  w.run ≤ 4 ∧ (w.pend = true → w.run = 0) ∧ d ≤ w.slen ∧ 5 * (w.slen + w.pend.toNat - d) + w.run ≤ d

/-- LAST = SR[OUTIDX - 1] while 0 < OUTIDX <= 256 (48_serial_engine.md R273). -/
def LineOk (w : Work) : Prop :=
  0 < w.outidx → w.outidx ≤ 256 → bitAt w.sr.toList (w.outidx - 1) = w.last

/-- A framing command is in the latch (48_serial_engine.md R261). -/
def Framing (s : State) : Prop := s.pending = .frame ∨ s.pending = .packframe

/-- Level S, phase by phase (48_serial_engine.md R264 to R270, R273). -/
def SerialOk (s : State) : Prop :=
  match s.phase with
  | .idle => True
  | .start => True
  | .pre => Framing s ∧ s.work.pend = false ∧ s.work.run = 0 ∧ s.work.slen = 0 ∧ s.work.crc = 0xFFFF#16
      ∧ s.work.cnt < 24 ∧ s.work.outidx = s.work.cnt ∧ LineOk s.work
  | .sflag => Framing s ∧ s.work.pend = false ∧ s.work.run = 0 ∧ s.work.slen = 0 ∧ s.work.crc = 0xFFFF#16
      ∧ s.work.cnt < 8 ∧ s.work.outidx = 24 + s.work.cnt ∧ LineOk s.work
  | .data =>
      (Framing s ∧ s.work.cnt < 168 ∧ s.work.outidx = 32 + s.work.slen ∧ StuffCount s.work s.work.cnt ∧ LineOk s.work)
      ∨ (s.pending = .crc ∧ s.work.pend = false ∧ s.work.cnt < s.regs.paylen.toNat ∧ s.regs.paylen.toNat ≤ 168)
  | .fcs => Framing s ∧ s.work.cnt < 16 ∧ s.work.outidx = 32 + s.work.slen ∧ StuffCount s.work (168 + s.work.cnt)
      ∧ LineOk s.work
  | .eflag => Framing s ∧ s.work.cnt < 8 ∧ s.work.outidx = 32 + s.work.slen + s.work.cnt ∧ StuffCount s.work 184
      ∧ (s.work.pend = true → s.work.cnt = 0) ∧ LineOk s.work
  | .pad => Framing s ∧ s.work.pend = false ∧ s.work.cnt = 0 ∧ 40 + s.work.slen ≤ s.work.outidx
      ∧ (s.work.outidx ≤ 256 ∨ s.work.outidx = 40 + s.work.slen) ∧ StuffCount s.work 184 ∧ LineOk s.work

/-- The invariant of the machine: it holds at reset and every step keeps it. -/
structure Inv (s : State) : Prop where
  status : StatusOk s.regs.status
  latch : LatchOk s
  registers : RegistersOk s.regs
  error : ErrorOk s.regs.status
  serial : SerialOk s

end Sys2Proof.Machine
end

