-- ==== Sys2Proof/Certificates/Slice0/Obligations.lean ====
section
/-! DEFINITION. The statements about the machine, from the numbered rules of spec/. -/

open Sys2Proof Sys2Proof.Machine

/-! ## Encoding -/

/-- The six command words of 30_encoding.md R91, written out bit by bit, decode to their commands. -/
def Obligations.CommandWordsDecode : Prop :=
  decodeTableWord 32 0b00000000000000000000000000000000 = some .nop
    ∧ decodeTableWord 32 0b00000000000000000000000000000001 = some .pack
    ∧ decodeTableWord 32 0b00000000000000000000000000000010 = some .frame
    ∧ decodeTableWord 32 0b00000000000000000000000000000011 = some .packframe
    ∧ decodeTableWord 32 0b00000000000000000000000000000100 = some .crc
    ∧ decodeTableWord 32 0b00000000000000000000000000000101 = some .clrerr

/-- Decoding and encoding agree on every word (30_encoding.md R91, R93): a word is a command's exactly when it is that
command's encoding. -/
def Obligations.DecodeAgreesWithEncode : Prop :=
  ∀ (i : Instr) (w : Word), decode w = .ok i ↔ w = encode i

/-- Exactly six of the 2^32 words are legal (30_encoding.md R91 to R93), and an illegal one is rejected for RSV before OP. -/
def Obligations.ExactlySixWordsAreLegal : Prop :=
  ∀ w : Word,
    ((∃ i, decode w = .ok i) ↔ w.toNat ≤ 5)
      ∧ (decode w = .error .reservedBits ↔ 16 ≤ w.toNat)
      ∧ (decode w = .error .reservedOpcode ↔ 6 ≤ w.toNat ∧ w.toNat ≤ 15)

/-! ## A step runs the command -/

/-- A write of a command's word to CMD, the block idle, is that command's exec (20_memory.md R62, 47_commands.md R230). -/
def Obligations.StepIssuesTheDecodedCommand : Prop :=
  ∀ (s : State) (w : Word) (i : Instr) (rest : List HostOp),
    HostNext s (.write 0x00 4 w) rest → s.regs.status.busy = false → decode w = .ok i →
      step s = exec i (afterHost s rest)

/-- At the engine's turn the step is the exec of the command in the latch (10_state.md R35, 47_commands.md R237), the host
turns before the engine's next turn drawn anew. -/
def Obligations.StepRunsThePendingCommand : Prop :=
  ∀ s : State, EngineNext s →
    let u : State := { s with hostTurns := Config.hostBurst s.draws, draws := s.draws + 1 }
    (s.pending = .pack → step s = exec .pack u)
      ∧ (s.pending = .frame → step s = exec .frame u)
      ∧ (s.pending = .packframe → step s = exec .packframe u)
      ∧ (s.pending = .crc → step s = exec .crc u)

/-- With no command running and nothing asked of it, the block stays as it is (60_exceptions.md R320). -/
def Obligations.IdleBlockStaysAsItIs : Prop :=
  ∀ s : State, s.regs.status.busy = false → s.host = [] → step s = .next s

/-! ## Issue -/

/-- ILLCMD (60_exceptions.md R305, 30_encoding.md R92, R93): an illegal word written to CMD with BUSY = 0 and ERR = 0 sets
code 5 with the word's low byte, clears DONE, and changes nothing else; PENDING and PHASE, NONE and IDLE when BUSY = 0, are
written with those values (log 22). -/
def Obligations.IllegalWordRaisesIllcmd : Prop :=
  ∀ (s : State) (w : Word) (rest : List HostOp),
    HostNext s (.write 0x00 4 w) rest → s.regs.status.busy = false → s.regs.status.err = none → 5 < w.toNat →
      step s = .next (failed (afterHost s rest) .illcmd (w.extractLsb' 0 8))

/-- While ERR is not 0 every word but CLRERR's, legal or not, is refused without any state change (60_exceptions.md R310). -/
def Obligations.PendingErrorRefusesCommands : Prop :=
  ∀ (s : State) (w : Word) (rest : List HostOp),
    HostNext s (.write 0x00 4 w) rest → s.regs.status.busy = false → s.regs.status.err ≠ none → w ≠ 5#32 →
      step s = .next (afterHost s rest)

/-- Acceptance (47_commands.md R230): with BUSY = 0 and ERR = 0 an engine command sets BUSY, clears DONE and is latched, at
Level S with PHASE = START; no other register changes. The waiting times are free values (logs 4, 5). -/
def Obligations.EngineCommandIsAccepted : Prop :=
  ∀ s : State, s.regs.status.busy = false → s.regs.status.err = none →
    let accepted (op : Pending) (i : Instr) : State :=
      { s with
        regs := { s.regs with status := { busy := true, done := false, err := none, errinfo := s.regs.status.errinfo } }
        pending := op
        phase := .start
        latency := Config.latency i s.draws
        hostTurns := Config.hostBurst s.draws
        draws := s.draws + 1 }
    exec .pack s = .next (accepted .pack .pack)
      ∧ exec .frame s = .next (accepted .frame .frame)
      ∧ exec .packframe s = .next (accepted .packframe .packframe)
      ∧ exec .crc s = .next (accepted .crc .crc)

/-- BUSY rises only by the acceptance of an engine command (47_commands.md R230: the only way a command starts). -/
def Obligations.BusyRisesOnlyByAcceptance : Prop :=
  ∀ s t : State, step s = .next t → s.regs.status.busy = false → t.regs.status.busy = true →
    ∃ (w : Word) (i : Instr) (rest : List HostOp),
      s.host = .write 0x00 4 w :: rest ∧ decode w = .ok i ∧ i ≠ .nop ∧ i ≠ .clrerr ∧ s.regs.status.err = none
        ∧ pendingInstr t.pending = some i

/-- Before its completing step a command at Level F changes nothing (47_commands.md R237): only the model's own count of
the steps to come goes down. -/
def Obligations.WaitingEngineChangesNothing : Prop :=
  ∀ (s : State) (n : Nat), s.regs.status.busy = true → s.level = .functional → s.latency = n + 1 →
    (s.pending = .pack → exec .pack s = .next { s with latency := n })
      ∧ (s.pending = .frame → exec .frame s = .next { s with latency := n })
      ∧ (s.pending = .packframe → exec .packframe s = .next { s with latency := n })
      ∧ (s.pending = .crc → exec .crc s = .next { s with latency := n })

/-! ## Reset -/

/-- The state after reset (10_state.md R40); PHASE is IDLE by 70_reset_and_hazards.md R340. -/
def Obligations.ResetStateIsAllZero : Prop :=
  statusWord State.reset.regs.status = 0#32
    ∧ State.reset.regs.mmsi = 0#32 ∧ State.reset.regs.lat = 0#32 ∧ State.reset.regs.lon = 0#32
    ∧ State.reset.regs.paylen = 0#8 ∧ State.reset.regs.crcval = 0#16 ∧ State.reset.regs.stufflen = 0#8
    ∧ State.reset.regs.pay.toList = List.replicate 6 0#32 ∧ State.reset.regs.frm.toList = List.replicate 8 0#32
    ∧ State.reset.pending = .none ∧ State.reset.phase = .idle

/-- The reset input in any state whatever, busy or with any error (70_reset_and_hazards.md R340, R341): every host-visible
register takes its reset value, a running command is abandoned. That the host's further accesses, the level and the value
last read stay is the model's choice (logs 1, 18, 23). -/
def Obligations.ResetInputClearsTheBlock : Prop :=
  ∀ (s : State) (rest : List HostOp), HostNext s .reset rest →
    ∃ t, step s = .next t ∧ t.regs = State.reset.regs ∧ t.pending = .none ∧ t.phase = .idle ∧ t.host = rest
      ∧ t.level = s.level ∧ t.rdata = s.rdata

/-! ## The register port -/

/-- STATUS as the host reads it (10_state.md R22). -/
def Obligations.StatusWordLayout : Prop :=
  ∀ st : Status,
    (statusWord st).getLsbD 0 = st.busy ∧ (statusWord st).getLsbD 1 = st.done ∧ (statusWord st).extractLsb' 2 2 = 0#2
      ∧ (statusWord st).extractLsb' 4 4 =
          (match st.err with
            | none => 0#4
            | some .payloadFormatError => 1#4
            | some .valueOutOfRangeError => 2#4
            | some .frameOverflowError => 3#4
            | some .assertionFailure => 4#4
            | some .illcmd => 5#4)
      ∧ (statusWord st).extractLsb' 8 8 = st.errinfo ∧ (statusWord st).extractLsb' 16 16 = 0#16

/-- A host read returns RegRead(off) and changes no register, in every state (20_memory.md R61, R66). -/
def Obligations.ReadChangesNoRegister : Prop :=
  ∀ (s : State) (off : Nat) (rest : List HostOp), HostNext s (.read off 4) rest → off < 128 → off % 4 = 0 →
    ∃ t, step s = .next t ∧ t.rdata = regRead off s ∧ t.host = rest ∧ t.regs = s.regs ∧ t.pending = s.pending
      ∧ t.phase = s.phase ∧ t.work = s.work ∧ t.level = s.level ∧ t.latency = s.latency

/-- RegRead(off) register by register (20_memory.md R61, R64, R65, 10_state.md R20): CMD and the unmapped offsets read 0
and STATUS reads exactly in every state; with BUSY = 0 every register reads as it is, reserved bits as 0. The offsets are
the aligned ones of the window. -/
def Obligations.RegisterReadValues : Prop :=
  ∀ s : State,
    regRead 0x00 s = 0#32 ∧ regRead 0x04 s = statusWord s.regs.status
      ∧ regRead 0x38 s = 0#32 ∧ regRead 0x3C s = 0#32 ∧ (∀ off, 0x60 ≤ off → off < 128 → off % 4 = 0 → regRead off s = 0#32)
      ∧ (s.regs.status.busy = false →
          regRead 0x08 s = s.regs.mmsi ∧ regRead 0x0C s = s.regs.lat ∧ regRead 0x10 s = s.regs.lon
            ∧ regRead 0x14 s = s.regs.paylen.setWidth 32 ∧ regRead 0x18 s = s.regs.crcval.setWidth 32
            ∧ regRead 0x1C s = s.regs.stufflen.setWidth 32
            ∧ regRead 0x20 s = s.regs.pay[0] ∧ regRead 0x24 s = s.regs.pay[1] ∧ regRead 0x28 s = s.regs.pay[2]
            ∧ regRead 0x2C s = s.regs.pay[3] ∧ regRead 0x30 s = s.regs.pay[4]
            ∧ regRead 0x34 s = s.regs.pay[5] &&& 0xFF000000#32
            ∧ (∀ j : Fin 8, regRead (0x40 + 4 * j.val) s = s.regs.frm[j]))

/-- RegWrite(off, v), all of it (20_memory.md R62): dropped while BUSY = 1 whatever off is; otherwise an issue at CMD, the
operand registers stored, everything else ignored. -/
def Obligations.RegWriteRule : Prop :=
  ∀ (s : State) (off : Nat) (v : Word) (rest : List HostOp),
    HostNext s (.write off 4 v) rest → off < 128 → off % 4 = 0 →
    let u := afterHost s rest
    (s.regs.status.busy = true → step s = .next u)
      ∧ (s.regs.status.busy = false →
          (off = 0x00 → step s = issue v u)
            ∧ (off = 0x08 → step s = .next { u with regs := { s.regs with mmsi := v } })
            ∧ (off = 0x0C → step s = .next { u with regs := { s.regs with lat := v } })
            ∧ (off = 0x10 → step s = .next { u with regs := { s.regs with lon := v } })
            ∧ (off = 0x14 → step s = .next { u with regs := { s.regs with paylen := v.extractLsb' 0 8 } })
            ∧ (∀ j : Fin 6, j ≠ 5 → off = 0x20 + 4 * j.val →
                step s = .next { u with regs := { s.regs with pay := s.regs.pay.set j v } })
            ∧ (off = 0x34 →
                step s = .next { u with regs := { s.regs with pay := s.regs.pay.set 5 (v &&& 0xFF000000#32) } })
            ∧ (off = 0x04 ∨ off = 0x18 ∨ off = 0x1C ∨ 0x38 ≤ off → step s = .next u))

/-- A register reads as the value last written to it, reserved bits as 0 and read-only registers unchanged, and a write to
one location changes what no other one reads (20_memory.md R62, R65, R71). -/
def Obligations.ReadAfterWrite : Prop :=
  (∀ (g g' : Reg) (v : Word) (r : HostRegs), g ≠ g' → regValue g (writeReg g' v r) = regValue g r)
    ∧ (∀ (g : Reg) (v : Word) (r : HostRegs),
        regValue g (writeReg g v r) =
          (match g with
            | .mmsi => v
            | .lat => v
            | .lon => v
            | .paylen => v &&& 0x000000FF#32
            | .pay j => if j = 5 then v &&& 0xFF000000#32 else v
            | _ => regValue g r))

/-- From acceptance to completion the engine owns the registers (20_memory.md R72): while BUSY = 1 no host access, a command
write included, changes a register, the command that runs, or the engine's progress. -/
def Obligations.BusyHostAccessChangesNothing : Prop :=
  ∀ (s : State) (op : HostOp) (rest : List HostOp),
    HostNext s op rest → s.regs.status.busy = true → op.wf = true → op ≠ .reset →
      ∃ t, step s = .next t ∧ t.regs = s.regs ∧ t.pending = s.pending ∧ t.phase = s.phase ∧ t.work = s.work
        ∧ t.level = s.level ∧ t.latency = s.latency

/-- WAIT (30_encoding.md R107): a poll returns STATUS and changes no register; while BUSY = 1 it stays the host's next
operation, with BUSY = 0 it is over. That it is one operation of the queue and where its value stands are the model's
(logs 18, 20). -/
def Obligations.PollWaitsForTheEngine : Prop :=
  ∀ (s : State) (rest : List HostOp), HostNext s .poll rest →
    let polled : State := { afterHost s rest with rdata := statusWord s.regs.status }
    (s.regs.status.busy = true → step s = .next { polled with host := .poll :: rest })
      ∧ (s.regs.status.busy = false → step s = .next polled)

/-- An access the block does not define stops by name (20_memory.md R63, R64, 93_implementation_defined.md U6). -/
def Obligations.UndefinedAccessStops : Prop :=
  ∀ (s : State) (off width : Nat) (v : Word) (rest : List HostOp),
    (HostNext s (.write off width v) rest ∨ HostNext s (.read off width) rest) →
      (128 ≤ off → step s = .fault .outsideWindow)
        ∧ (off < 128 → width ≠ 4 → step s = .refused .unsupportedWidth)
        ∧ (off < 128 → width = 4 → off % 4 ≠ 0 → step s = .refused .misaligned)

/-! ## Immediate commands -/

/-- NOP changes nothing of any kind, accepted, refused or dropped (47_commands.md R231). -/
def Obligations.NopChangesNothing : Prop :=
  (∀ s : State, exec .nop s = .next s)
    ∧ (∀ (s : State) (rest : List HostOp), HostNext s (.write 0x00 4 0#32) rest → step s = .next (afterHost s rest))

/-- CLRERR (47_commands.md R236, 60_exceptions.md R311): it clears ERR and ERRINFO for codes 1, 2, 3 and 5 and writes
nothing else; with no error, with code 4, and while BUSY = 1 it has no effect; only the exact word 0x00000005 is CLRERR. -/
def Obligations.ClrerrClearsTheError : Prop :=
  ∀ s : State,
    (s.regs.status.busy = true → exec .clrerr s = .next s)
      ∧ (s.regs.status.busy = false →
          (∀ k, s.regs.status.err = some k → k ≠ .assertionFailure →
              exec .clrerr s =
                .next { s with regs := { s.regs with status :=
                  { busy := false, done := s.regs.status.done, err := none, errinfo := 0#8 } } })
            ∧ (s.regs.status.err = none ∨ s.regs.status.err = some .assertionFailure → exec .clrerr s = .next s)
            ∧ issue 5#32 s = exec .clrerr s
            ∧ (∀ w : Word, s.regs.status.err ≠ none → w ≠ 5#32 → issue w s = .next s))

/-! ## Engine commands, at completion (Level F; Level S follows by SerialEngineRefinesCompletion) -/

/-- PACK with operands in range (47_commands.md R232, 40_field_packing.md R136): the payload buffer holds PackType1 of the
operands, PAYLEN is 168, DONE is 1, nothing else changes. -/
def Obligations.PackPacksTheReport : Prop :=
  ∀ s : State, Completing s .pack → OperandsInRange s.regs →
    exec .pack s = .next (succeeded s { s.regs with pay := payOf (packed s.regs), paylen := 168#8 } s.work)

/-- PACK and PACKFRAME with an operand out of range (60_exceptions.md R302, 40_field_packing.md R131): code 2, ERRINFO the
mask of all failing operands, nothing written. -/
def Obligations.PackRejectsOperandsOutOfRange : Prop :=
  ∀ s : State, ¬ OperandsInRange s.regs →
    ∃ mask : Byte,
      (mask.getLsbD 0 = true ↔ 2 ^ 30 ≤ s.regs.mmsi.toNat)
        ∧ (mask.getLsbD 1 = true ↔ s.regs.lat.toInt < -54000000 ∨ 54000000 < s.regs.lat.toInt)
        ∧ (mask.getLsbD 2 = true ↔ s.regs.lon.toInt < -108000000 ∨ 108000000 < s.regs.lon.toInt)
        ∧ mask.extractLsb' 3 5 = 0#5
        ∧ (Completing s .pack → exec .pack s = .next (failed s .valueOutOfRangeError mask))
        ∧ (Completing s .packframe → exec .packframe s = .next (failed s .valueOutOfRangeError mask))

/-- FRAME (47_commands.md R233, R238) on a payload that fits: FRM holds the coded frame, CRCVAL the CRC, STUFFLEN the
stuffed length, DONE is 1, no other host-visible register changes. -/
def Obligations.FrameFramesThePayload : Prop :=
  ∀ s : State, Completing s .frame → s.regs.paylen = 168#8 → stuffedLength (payBits s.regs) ≤ 216 →
    ∃ w, exec .frame s =
      .next (succeeded s
        { s.regs with
          frm := frmOf (codedFrame (payBits s.regs))
          crcval := crc16X25 (bytesOf (payBits s.regs))
          stufflen := BitVec.ofNat 8 (stuffedLength (payBits s.regs)) } w)

/-- FRAME with a payload length other than 168 (60_exceptions.md R301): code 1, ERRINFO the length, nothing written. -/
def Obligations.FrameRejectsOtherLengths : Prop :=
  ∀ s : State, Completing s .frame → s.regs.paylen ≠ 168#8 →
    exec .frame s = .next (failed s .payloadFormatError s.regs.paylen)

/-- FRAME on a payload that does not fit (60_exceptions.md R303, 44_frame_assembly.md R191): code 3, ERRINFO the stuffed
length, which is 217 to 220, nothing written. -/
def Obligations.FrameReportsOverflow : Prop :=
  ∀ s : State, Completing s .frame → s.regs.paylen = 168#8 → 216 < stuffedLength (payBits s.regs) →
    ∃ info : Byte,
      exec .frame s = .next (failed s .frameOverflowError info)
        ∧ info.toNat = stuffedLength (payBits s.regs) ∧ 217 ≤ info.toNat ∧ info.toNat ≤ 220

/-- PACKFRAME with operands in range always succeeds (47_commands.md R234): payload, length, frame, CRC and stuffed length
are those of the packed report, whatever PAY and PAYLEN held before. -/
def Obligations.PackframeEncodesTheReport : Prop :=
  ∀ s : State, Completing s .packframe → OperandsInRange s.regs →
    ∃ w, exec .packframe s =
      .next (succeeded s
        { s.regs with
          pay := payOf (packed s.regs)
          paylen := 168#8
          frm := frmOf (codedFrame (packed s.regs))
          crcval := crc16X25 (bytesOf (packed s.regs))
          stufflen := BitVec.ofNat 8 (stuffedLength (packed s.regs)) } w)

/-- CRC (47_commands.md R235): CRCVAL takes the CRC of the first PAYLEN bits, DONE is 1, no other host-visible register
changes. PAYLEN = 0 is legal. -/
def Obligations.CrcComputesOverThePayload : Prop :=
  ∀ s : State, Completing s .crc → s.regs.paylen.toNat % 8 = 0 → s.regs.paylen.toNat ≤ 168 →
    ∃ w, exec .crc s =
      .next (succeeded s { s.regs with crcval := crc16X25 (bytesOf ((payBits s.regs).take s.regs.paylen.toNat)) } w)

/-- CRC with a length that is no multiple of 8 or above 168 (60_exceptions.md R301): code 1, ERRINFO the length, nothing
written. -/
def Obligations.CrcRejectsOtherLengths : Prop :=
  ∀ s : State, Completing s .crc → (s.regs.paylen.toNat % 8 ≠ 0 ∨ 168 < s.regs.paylen.toNat) →
    exec .crc s = .next (failed s .payloadFormatError s.regs.paylen)

/-- The MASK alternative (40_field_packing.md R135), not taken by this hardware: whatever the operands, packing succeeds
with the low bits of the registers. -/
def Obligations.MaskPolicyNeverRejects : Prop :=
  ∀ s : State,
    doPack .mask s = .done { s with regs := { s.regs with pay := payOf (packed s.regs), paylen := 168#8 } }

/-! ## Whole-machine rules -/

/-- No command writes MMSI, LAT or LON (60_exceptions.md R309), whatever the level and however it ends. -/
def Obligations.NoCommandWritesTheOperands : Prop :=
  ∀ (i : Instr) (s t : State), exec i s = .next t →
    t.regs.mmsi = s.regs.mmsi ∧ t.regs.lat = s.regs.lat ∧ t.regs.lon = s.regs.lon ∧ t.level = s.level
      ∧ t.host = s.host ∧ t.rdata = s.rdata

/-- From a state that meets the invariant the result registers change only by reset or at the success of a command that
writes them (10_state.md R27, R28, R30), at both levels. A reset still waiting in the queue does not matter. -/
def Obligations.ResultsChangeOnlyOnSuccess : Prop :=
  ∀ s t : State, Inv s → step s = .next t → ¬ ResetTurn s →
    (t.regs.frm ≠ s.regs.frm ∨ t.regs.stufflen ≠ s.regs.stufflen →
        (s.pending = .frame ∨ s.pending = .packframe) ∧ s.regs.status.busy = true ∧ t.regs.status.busy = false
          ∧ t.regs.status.done = true)
      ∧ (t.regs.crcval ≠ s.regs.crcval →
          (s.pending = .frame ∨ s.pending = .packframe ∨ s.pending = .crc) ∧ s.regs.status.busy = true
            ∧ t.regs.status.busy = false ∧ t.regs.status.done = true)

/-- No partial output (60_exceptions.md R309, 47_commands.md R234): a step that enters an error writes no data register; the
one exception is PACKFRAME failing in its FRAME part, which keeps the PACK part's PAY and PAYLEN. An error of its PACK part
(ValueOutOfRangeError, or AssertionFailure with ERRINFO 1) is no exception. -/
def Obligations.ErrorLeavesNoPartialOutput : Prop :=
  ∀ s t : State, step s = .next t → s.regs.status.err = none → t.regs.status.err ≠ none →
    t.regs.mmsi = s.regs.mmsi ∧ t.regs.lat = s.regs.lat ∧ t.regs.lon = s.regs.lon ∧ t.regs.frm = s.regs.frm
      ∧ t.regs.crcval = s.regs.crcval ∧ t.regs.stufflen = s.regs.stufflen
      ∧ (s.pending ≠ .packframe ∨ t.regs.status.err = some .valueOutOfRangeError ∨ t.regs.status.err = some .illcmd
            ∨ (t.regs.status.err = some .assertionFailure ∧ t.regs.status.errinfo = 1#8) →
          t.regs.pay = s.regs.pay ∧ t.regs.paylen = s.regs.paylen)
      ∧ t.regs.status.done = false ∧ t.regs.status.busy = false ∧ t.pending = .none

/-- DONE falls only when the next engine command is accepted, an illegal word is written, or by reset
(70_reset_and_hazards.md R356): not by reads, NOP or CLRERR. -/
def Obligations.DoneFallsOnlyByTheNextCommand : Prop :=
  ∀ s t : State, step s = .next t → s.regs.status.busy = false → s.regs.status.done = true →
    t.regs.status.done = false → s.host.head? ≠ some .reset →
      ∃ (w : Word) (rest : List HostOp), s.host = .write 0x00 4 w :: rest ∧ s.regs.status.err = none
        ∧ ((1 ≤ w.toNat ∧ w.toNat ≤ 4 ∧ t.regs.status.busy = true)
            ∨ (5 < w.toNat ∧ t.regs.status.err = some .illcmd))

/-- At the completion of an engine command exactly one of DONE = 1 and ERR ≠ 0 holds (70_reset_and_hazards.md R351). -/
def Obligations.CompletionIsSuccessOrError : Prop :=
  ∀ s t : State, step s = .next t → StatusOk s.regs.status → s.regs.status.busy = true →
    t.regs.status.busy = false → ¬ ResetTurn s →
      (t.regs.status.done = true ∧ t.regs.status.err = none ∧ t.regs.status.errinfo = 0#8)
        ∨ (t.regs.status.done = false ∧ t.regs.status.err ≠ none)

/-- AssertionFailure is fatal (60_exceptions.md R312): with ERR = 4 nothing but reset changes STATUS. -/
def Obligations.AssertionFailureIsFatal : Prop :=
  ∀ s t : State, step s = .next t → s.regs.status.busy = false →
    s.regs.status.err = some .assertionFailure → s.host.head? ≠ some .reset → t.regs.status = s.regs.status

/-- AssertionFailure is unreachable (60_exceptions.md R304, 40_field_packing.md R134, 44_frame_assembly.md R193): no step
of either level raises it. -/
def Obligations.AssertionFailureIsNeverRaised : Prop :=
  ∀ s t : State, step s = .next t → s.regs.status.err ≠ some .assertionFailure →
    t.regs.status.err ≠ some .assertionFailure

/-- The invariant holds at reset. -/
def Obligations.ResetMeetsTheInvariant : Prop := Inv State.reset

/-- Every step of either level keeps the invariant (10_state.md R22, R28, R29, R35; 60_exceptions.md R300;
48_serial_engine.md R260, R273). -/
def Obligations.EveryStepKeepsTheInvariant : Prop :=
  ∀ s t : State, Inv s → step s = .next t → Inv t

/-! ## The stages -/

/-- The bit-serial CRC: eight shift steps fed least significant bit first are one table step (41_crc.md R155). -/
def Obligations.SerialCrcEqualsTableCrc : Prop :=
  ∀ (crc : Half) (b : Byte),
    crcByte crc b =
      crcBit (crcBit (crcBit (crcBit (crcBit (crcBit (crcBit (crcBit crc
        (b.getLsbD 0)) (b.getLsbD 1)) (b.getLsbD 2)) (b.getLsbD 3)) (b.getLsbD 4)) (b.getLsbD 5)) (b.getLsbD 6)) (b.getLsbD 7)

/-- The transmitted payload bits are what the bit-serial CRC consumes (42_bit_reversal.md R173): the shift register fed
with TxData(p)[0..168) ends with the CRC register of Bytes(p). -/
def Obligations.CrcConsumesTheTransmittedOrder : Prop :=
  ∀ p : Bits, p.length = 168 → ((txData p).take 168).foldl crcBit 0xFFFF#16 = crcRegister (bytesOf p)

/-- TxData as one formula (42_bit_reversal.md R173): the payload bits through the reversed addressing, then the CRC least
significant bit first. -/
def Obligations.TransmittedDataFormula : Prop :=
  ∀ p : Bits, p.length = 168 →
    (txData p).length = 184
      ∧ (∀ i, i < 168 → bitAt (txData p) i = bitAt p (8 * (i / 8) + 7 - i % 8))
      ∧ (∀ i, 168 ≤ i → i < 184 → bitAt (txData p) i = (crc16X25 (bytesOf p)).getLsbD (i - 168))

/-- RevBytes (42_bit_reversal.md R171): the bits of each byte reversed, byte order kept; its own inverse; it keeps the
length and the number of ones. -/
def Obligations.ByteReversalIsAnInvolution : Prop :=
  ∀ s : Bits, s.length % 8 = 0 →
    (revBytes s).length = s.length
      ∧ (∀ k j, j < 8 → 8 * k + 7 < s.length → bitAt (revBytes s) (8 * k + j) = bitAt s (8 * k + 7 - j))
      ∧ revBytes (revBytes s) = s ∧ ones (revBytes s) = ones s

/-- Destuff(Stuff(s)) = s for every bit sequence (43_bit_stuffing.md R184). -/
def Obligations.DestuffingUndoesStuffing : Prop := ∀ s : Bits, destuff (stuff s) = s

/-- Stuffed data never holds six consecutive ones, so it never holds the flag (43_bit_stuffing.md R183). -/
def Obligations.StuffedDataHoldsNoFlag : Prop :=
  ∀ s : Bits, ¬ (List.replicate 6 true <:+: stuff s) ∧ ¬ (flag <:+: stuff s)

/-- The stuffed length (43_bit_stuffing.md R182): k zeros inserted, k at most a fifth of the bits and of the ones, and
k = 0 exactly without five consecutive ones. -/
def Obligations.StuffedLengthBounds : Prop :=
  ∀ s : Bits, ∃ k, (stuff s).length = s.length + k ∧ k ≤ s.length / 5 ∧ k ≤ ones s / 5
    ∧ (k = 0 ↔ ¬ (List.replicate 5 true <:+: s))

/-- Assemble (44_frame_assembly.md R192, R197): 256 bits whatever the data, each from its region. -/
def Obligations.AssembledFrameRegions : Prop :=
  ∀ t : Bits, t.length ≤ 216 →
    (assemble t).length = 256
      ∧ (∀ i, i < 24 → bitAt (assemble t) i = (i % 2 == 0))
      ∧ (∀ i, i < 8 → bitAt (assemble t) (24 + i) = bitAt [false, true, true, true, true, true, true, false] i)
      ∧ (∀ i, i < t.length → bitAt (assemble t) (32 + i) = bitAt t i)
      ∧ (∀ i, i < 8 →
          bitAt (assemble t) (32 + t.length + i) = bitAt [false, true, true, true, true, true, true, false] i)
      ∧ (∀ i, 40 + t.length ≤ i → i < 256 → bitAt (assemble t) i = false)

/-- The NRZI code (45_nrzi.md R210, R213): g[i] = g[i-1] XOR (1 - f[i]) with g[-1] = 0; the decoder is 1 exactly where the
level does not change; the round trip holds both ways. -/
def Obligations.NrziRoundTrip : Prop :=
  ∀ f : Bits,
    (nrzi f).length = f.length
      ∧ (∀ i, i < f.length → bitAt (nrzi f) i = ((if i = 0 then false else bitAt (nrzi f) (i - 1)) ^^ !bitAt f i))
      ∧ (∀ i, i < f.length → bitAt (unnrzi f) i = (bitAt f i == if i = 0 then false else bitAt f (i - 1)))
      ∧ unnrzi (nrzi f) = f ∧ nrzi (unnrzi f) = f

/-- Every frame begins 0x66 0x66 0x66 0xFE (30_encoding.md R104, 46_byte_packing.md R221). -/
def Obligations.FirstWordOfEveryFrame : Prop :=
  ∀ t : Bits, (frmOf (nrzi (assemble t)))[0] = 0x666666FE#32

/-- PackType1 bit by bit (40_field_packing.md R133, R137): 168 bits, the three fields slices of the registers, bit 5 one,
every other bit zero; at most 86 ones. -/
def Obligations.PackedPayloadBits : Prop :=
  ∀ m lo la : Word,
    let p := packType1 (m.toNat : Int) lo.toInt la.toInt
    p.length = 168
      ∧ (∀ i, i < 30 → bitAt p (8 + i) = m.getLsbD (29 - i))
      ∧ (∀ i, i < 28 → bitAt p (61 + i) = lo.getLsbD (27 - i))
      ∧ (∀ i, i < 27 → bitAt p (89 + i) = la.getLsbD (26 - i))
      ∧ (∀ i, i < 8 → bitAt p i = (i == 5))
      ∧ (∀ i, (38 ≤ i ∧ i < 61) ∨ (116 ≤ i ∧ i < 168) → bitAt p i = false)
      ∧ ones p ≤ 86

/-- A packed payload never overflows the frame (44_frame_assembly.md R196): its stuffed length is at most 205. -/
def Obligations.PackedPayloadNeverOverflows : Prop :=
  ∀ m lo la : Int, stuffedLength (packType1 m lo la) ≤ 205

/-- The buffers are their bit sequences (10_state.md R29, R30, R41, 20_memory.md R68): bit 32j + k of a sequence is bit
31 - k of register j; what is stored is what is read back, PAY5[23:0] staying 0, and the 32-byte output is PackBytes of
the coded frame. -/
def Obligations.BuffersReadBack : Prop :=
  ∀ (r : HostRegs) (p g : Bits),
    (payBits r).length = 168 ∧ (frmBits r).length = 256
      ∧ (∀ (j : Fin 6) (k : Nat), k < 32 → 32 * j.val + k < 168 →
          bitAt (payBits r) (32 * j.val + k) = r.pay[j].getLsbD (31 - k))
      ∧ (∀ (j : Fin 8) (k : Nat), k < 32 → bitAt (frmBits r) (32 * j.val + k) = r.frm[j].getLsbD (31 - k))
      ∧ (p.length = 168 → payBits { r with pay := payOf p } = p ∧ (payOf p)[5] &&& 0x00FFFFFF#32 = 0#32)
      ∧ (g.length = 256 → frmBits { r with frm := frmOf g } = g ∧ frameBuffer { r with frm := frmOf g } = packBytes g)

/-- Byte packing (46_byte_packing.md R220, R221): the coded frame gives 32 bytes, the first bit of each eight the most
significant, and FRMj holds bytes 4j to 4j + 3, the earlier byte more significant. -/
def Obligations.FrameBytesInRegisters : Prop :=
  ∀ g : Bits, g.length = 256 →
    let byte (b : Nat) : Byte := (packBytes g).getD b 0#8
    (packBytes g).length = 32
      ∧ (∀ b i, b < 32 → i < 8 → (byte b).getLsbD (7 - i) = bitAt g (8 * b + i))
      ∧ (∀ j : Fin 8, (frmOf g)[j].toNat =
          (byte (4 * j.val)).toNat * 2 ^ 24 + (byte (4 * j.val + 1)).toNat * 2 ^ 16
            + (byte (4 * j.val + 2)).toNat * 2 ^ 8 + (byte (4 * j.val + 3)).toNat)

/-- ScaleDeg(x) is a nearest integer to x * 600000 (40_field_packing.md R130), however a tie is broken. -/
def Obligations.ScaledDegreesAreNearest : Prop :=
  ∀ (num : Int) (den : Nat), 0 < den →
    2 * (num * 600000 - scaleDeg num den * den) ≤ den ∧ -(den : Int) ≤ 2 * (num * 600000 - scaleDeg num den * den)

/-! ## Level S, liveness, instances -/

/-- Level S and Level F leave the same host-visible state (48_serial_engine.md R272): from the acceptance of any engine
command, whatever the host still does but reset, the bit-serial engine reaches IDLE with exactly the registers that the
completion step of 47_commands.md R237 leaves, error code and ERRINFO included; undisturbed, after at most 262 engine steps
(R271, a count that is not normative). How host accesses interleave is a free value (log 4). -/
def Obligations.SerialEngineRefinesCompletion : Prop :=
  ∀ s : State, s.level = .serial → s.regs.status.busy = true → s.pending ≠ .none → s.phase = .start →
    (∀ op ∈ s.host, op.wf = true ∧ op ≠ .reset) →
    ∃ k t, Runs k s t ∧ t.phase = .idle ∧ t.pending = .none
      ∧ t.regs = (complete (pendingBody s.pending s)).regs
      ∧ (s.host = [] → k ≤ 262)

/-- Every accepted command completes (47_commands.md R237), at either level, whatever the host does meanwhile but reset and
whatever LATENCY is, with the result of its body on the registers at acceptance; until then STATUS is unchanged, BUSY with
it, and at Level F every register is. At Level S acceptance leaves PHASE = START (R230). Fairness is the model's reading
(logs 4, 5). -/
def Obligations.EveryAcceptedCommandCompletes : Prop :=
  ∀ s : State, s.regs.status.busy = true → s.pending ≠ .none → (s.level = .serial → s.phase = .start) →
    (∀ op ∈ s.host, op.wf = true ∧ op ≠ .reset) →
    ∃ k t, Runs k s t ∧ t.regs = (complete (pendingBody s.pending s)).regs ∧ t.regs.status.busy = false
      ∧ t.pending = .none
      ∧ (∀ j, j < k → ∃ u, Runs j s u ∧ u.regs.status = s.regs.status ∧ (s.level = .functional → u.regs = s.regs))

/-- Instances never interact (20_memory.md R75): several instances step one at a time, each by its own step, and every
other is as it was. That they are a list of which one steps at a time is the model's (log 24). -/
def Obligations.InstancesNeverInteract : Prop :=
  ∀ (k j : Nat) (ms ns : List State), turnAt k ms = .next ns → j ≠ k →
    ns[j]? = ms[j]? ∧ (∀ s, ms[k]? = some s → ∃ t, step s = .next t ∧ ns[k]? = some t)
end

