-- ==== Sys2Proof/Laws/Bits.lean ====
section
/-! SUPPORT. Lengths and bits of sequences (00_scope.md R8 to R10, 20_memory.md R68). -/
namespace Sys2Proof.Machine

@[simp] theorem zeros_length (n : Nat) : (zeros n).length = n := by simp [zeros]

@[simp] theorem bitsOf_length (n v : Nat) : (bitsOf n v).length = n := by
  induction n with
  | zero => rfl
  | succ k ih => simp [bitsOf, ih]

/-- Bits_n(v)[i] = (v >> (n-1-i)) & 1 (00_scope.md R9). -/
theorem bitAt_bitsOf (n v i : Nat) (h : i < n) : bitAt (bitsOf n v) i = v.testBit (n - 1 - i) := by
  induction n generalizing i with
  | zero => omega
  | succ k ih =>
    cases i with
    | zero => simp [bitsOf, bitAt]
    | succ j =>
      have hj := ih j (by omega)
      simp only [bitAt, bitsOf, List.getD_cons_succ] at hj ⊢
      rw [hj]
      congr 1
      omega

theorem bitAt_append_left (a b : Bits) (i : Nat) (h : i < a.length) : bitAt (a ++ b) i = bitAt a i := by
  simp [bitAt, List.getElem?_append_left h]

theorem bitAt_append_right (a b : Bits) (i : Nat) (h : a.length ≤ i) :
    bitAt (a ++ b) i = bitAt b (i - a.length) := by
  simp [bitAt, List.getElem?_append_right h]

@[simp] theorem bitAt_zeros (n i : Nat) : bitAt (zeros n) i = false := by
  simp only [bitAt, zeros, List.getD_eq_getElem?_getD, List.getElem?_replicate]
  split <;> rfl

@[simp] theorem wordBits_length (w : Word) : (wordBits w).length = 32 := bitsOf_length 32 _

/-- Bit 31 of a register comes first (20_memory.md R68). -/
theorem bitAt_wordBits (w : Word) (k : Nat) (h : k < 32) : bitAt (wordBits w) k = w.getLsbD (31 - k) := by
  rw [wordBits, bitAt_bitsOf _ _ _ h]
  simp [BitVec.getLsbD]

/-- Consecutive registers (20_memory.md R68). -/
theorem bitAt_flatMap_wordBits (l : List Word) (j k : Nat) (hj : j < l.length) (hk : k < 32) :
    bitAt (l.flatMap wordBits) (32 * j + k) = l[j].getLsbD (31 - k) := by
  induction l generalizing j with
  | nil => simp at hj
  | cons w l ih =>
    rw [List.flatMap_cons]
    cases j with
    | zero => rw [bitAt_append_left _ _ _ (by simp; omega)]; simpa using bitAt_wordBits w k hk
    | succ j =>
      rw [bitAt_append_right _ _ _ (by simp; omega), List.getElem_cons_succ, ← ih j (by simpa using hj)]
      congr 1
      simp; omega

@[simp] theorem payBits_length (r : HostRegs) : (payBits r).length = 168 := by
  simp [payBits, Config.payloadBits]

@[simp] theorem frmBits_length (r : HostRegs) : (frmBits r).length = 256 := by
  simp [frmBits]

@[simp] theorem ones_append (a b : Bits) : ones (a ++ b) = ones a + ones b := by simp [ones]

@[simp] theorem ones_cons (b : Bool) (s : Bits) : ones (b :: s) = b.toNat + ones s := by
  cases b <;> simp [ones, Nat.add_comm]

@[simp] theorem ones_nil : ones [] = 0 := rfl

theorem ones_le_length (s : Bits) : ones s ≤ s.length := List.countP_le_length

/-- A sequence of whole bytes is empty or begins with eight bits. -/
theorem bytes_cases (s : Bits) (h : s.length % 8 = 0) :
    s = [] ∨ ∃ b0 b1 b2 b3 b4 b5 b6 b7 rest, s = b0 :: b1 :: b2 :: b3 :: b4 :: b5 :: b6 :: b7 :: rest
      ∧ rest.length % 8 = 0 := by
  match s, h with
  | [], _ => exact .inl rfl
  | [_], h => simp at h
  | [_, _], h => simp at h
  | [_, _, _], h => simp at h
  | [_, _, _, _], h => simp at h
  | [_, _, _, _, _], h => simp at h
  | [_, _, _, _, _, _], h => simp at h
  | [_, _, _, _, _, _, _], h => simp at h
  | b0 :: b1 :: b2 :: b3 :: b4 :: b5 :: b6 :: b7 :: rest, h =>
    exact .inr ⟨b0, b1, b2, b3, b4, b5, b6, b7, rest, rfl, by simp at h; omega⟩

/-- Induction over sequences of whole bytes. -/
theorem bytes_induction {P : Bits → Prop} (nil : P [])
    (cons : ∀ b0 b1 b2 b3 b4 b5 b6 b7 rest, rest.length % 8 = 0 → P rest →
      P (b0 :: b1 :: b2 :: b3 :: b4 :: b5 :: b6 :: b7 :: rest)) (s : Bits) (h : s.length % 8 = 0) : P s := by
  induction hn : s.length using Nat.strong_induction_on generalizing s with
  | _ n ih =>
    rcases bytes_cases s h with rfl | ⟨b0, b1, b2, b3, b4, b5, b6, b7, rest, rfl, hr⟩
    · exact nil
    · exact cons _ _ _ _ _ _ _ _ rest hr (ih rest.length (by simp at hn; omega) rest hr rfl)

end Sys2Proof.Machine
end

