-- ==== Sys2Proof/Laws/Stages.lean ====
section
/-! SUPPORT. What each stage of the pipeline does to lengths and to the run counter (40_field_packing.md to 45_nrzi.md). -/
namespace Sys2Proof.Machine

@[simp] theorem field_length (v : Int) (n : Nat) : (field v n).length = n := bitsOf_length n _

/-- The packer's length self-check never fails (40_field_packing.md R134). -/
@[simp] theorem packType1_length (m lo la : Int) : (packType1 m lo la).length = 168 := by simp [packType1]

@[simp] theorem crcField_length (c : Half) : (crcField c).length = 16 := by simp [crcField]

@[simp] theorem dataOf_length (p : Bits) : (dataOf p).length = p.length + 16 := by simp [dataOf]

theorem revBytes_length_of_bytes (s : Bits) (h : s.length % 8 = 0) : (revBytes s).length = s.length := by
  refine bytes_induction (P := fun s => (revBytes s).length = s.length) rfl ?_ s h
  intro b0 b1 b2 b3 b4 b5 b6 b7 rest _ ih
  simp [revBytes, ih]

theorem txData_length (p : Bits) (h : p.length = 168) : (txData p).length = 184 := by
  rw [txData, revBytes_length_of_bytes] <;> simp [h]

@[simp] theorem overflows_iff (n : Nat) : overflows n = true ↔ 216 < n := by
  simp [overflows, Config.preambleBits, Config.flagBits, Config.frameBits]
  omega

/-- The frame-length self-check never fails (44_frame_assembly.md R193). -/
theorem assemble_length_of_fits (t : Bits) (h : t.length ≤ 216) : (assemble t).length = 256 := by
  simp [assemble, preamble, flag, Config.stuffBudget]
  omega

@[simp] theorem nrziFrom_length (last : Bool) (f : Bits) : (nrziFrom last f).length = f.length := by
  induction f generalizing last with
  | nil => rfl
  | cons b rest ih => simp [nrziFrom, ih]

/-- Stuffing from a run count adds a zero for every five ones, the run count included (43_bit_stuffing.md R182). -/
theorem stuffFrom_length_bounds (s : Bits) (run : Nat) (h : run ≤ 4) :
    s.length ≤ (stuffFrom run s).length ∧ 5 * ((stuffFrom run s).length - s.length) ≤ run + ones s := by
  induction s generalizing run with
  | nil => simp [stuffFrom]
  | cons b rest ih =>
    cases b with
    | false =>
      have := ih 0 (by omega)
      simp [stuffFrom, stuffStep]
      omega
    | true =>
      by_cases hr : run + 1 = 5
      · have := ih 0 (by omega)
        simp [stuffFrom, stuffStep, Config.stuffRun, hr]
        omega
      · have := ih (run + 1) (by omega)
        simp [stuffFrom, stuffStep, Config.stuffRun, hr]
        omega

/-- RUN stays in 0..4 between steps (10_state.md R33). -/
theorem runAfter_le (s : Bits) (run : Nat) (h : run ≤ 4) : runAfter run s ≤ 4 := by
  induction s generalizing run with
  | nil => simpa [runAfter]
  | cons b rest ih =>
    cases b with
    | false => exact ih 0 (by omega)
    | true =>
      by_cases hr : run + 1 = 5
      · simpa [runAfter, stuffStep, Config.stuffRun, hr] using ih 0 (by omega)
      · simpa [runAfter, stuffStep, Config.stuffRun, hr] using ih (run + 1) (by omega)

/-- The stuffed length of a payload lies in 184..220 (43_bit_stuffing.md R182). -/
theorem stuffedLength_bounds (p : Bits) (h : p.length = 168) : 184 ≤ stuffedLength p ∧ stuffedLength p ≤ 220 := by
  have hl := txData_length p h
  have hb := stuffFrom_length_bounds (txData p) 0 (by omega)
  have ho := ones_le_length (txData p)
  simp only [stuffedLength, stuff]
  omega

end Sys2Proof.Machine
end

