-- ==== Sys2Proof/Laws/State.lean ====
section
/-! SUPPORT. One lemma per field of State and named update, so that no later proof unfolds a record update. -/
namespace Sys2Proof.Machine

/-! ### errorEntry -/
@[simp] theorem errorEntry_regs (k : ErrorKind) (info : Byte) (s : State) :
    (errorEntry k info s).regs = { s.regs with status := errorStatus k info } := rfl
@[simp] theorem errorEntry_pending (k : ErrorKind) (info : Byte) (s : State) : (errorEntry k info s).pending = .none := rfl
@[simp] theorem errorEntry_phase (k : ErrorKind) (info : Byte) (s : State) : (errorEntry k info s).phase = .idle := rfl
@[simp] theorem errorEntry_work (k : ErrorKind) (info : Byte) (s : State) : (errorEntry k info s).work = s.work := rfl
@[simp] theorem errorEntry_level (k : ErrorKind) (info : Byte) (s : State) : (errorEntry k info s).level = s.level := rfl
@[simp] theorem errorEntry_latency (k : ErrorKind) (info : Byte) (s : State) : (errorEntry k info s).latency = s.latency := rfl
@[simp] theorem errorEntry_hostTurns (k : ErrorKind) (info : Byte) (s : State) : (errorEntry k info s).hostTurns = s.hostTurns := rfl
@[simp] theorem errorEntry_draws (k : ErrorKind) (info : Byte) (s : State) : (errorEntry k info s).draws = s.draws := rfl
@[simp] theorem errorEntry_host (k : ErrorKind) (info : Byte) (s : State) : (errorEntry k info s).host = s.host := rfl
@[simp] theorem errorEntry_rdata (k : ErrorKind) (info : Byte) (s : State) : (errorEntry k info s).rdata = s.rdata := rfl

/-! ### clearError -/
@[simp] theorem clearError_regs (s : State) :
    (clearError s).regs = { s.regs with status := clearStatus s.regs.status } := rfl
@[simp] theorem clearError_pending (s : State) : (clearError s).pending = s.pending := rfl
@[simp] theorem clearError_phase (s : State) : (clearError s).phase = s.phase := rfl
@[simp] theorem clearError_work (s : State) : (clearError s).work = s.work := rfl
@[simp] theorem clearError_level (s : State) : (clearError s).level = s.level := rfl
@[simp] theorem clearError_latency (s : State) : (clearError s).latency = s.latency := rfl
@[simp] theorem clearError_hostTurns (s : State) : (clearError s).hostTurns = s.hostTurns := rfl
@[simp] theorem clearError_draws (s : State) : (clearError s).draws = s.draws := rfl
@[simp] theorem clearError_host (s : State) : (clearError s).host = s.host := rfl
@[simp] theorem clearError_rdata (s : State) : (clearError s).rdata = s.rdata := rfl

/-! ### finish -/
@[simp] theorem finish_regs (s : State) :
    (finish s).regs = { s.regs with status := finishStatus s.regs.status } := rfl
@[simp] theorem finish_pending (s : State) : (finish s).pending = .none := rfl
@[simp] theorem finish_phase (s : State) : (finish s).phase = .idle := rfl
@[simp] theorem finish_work (s : State) : (finish s).work = s.work := rfl
@[simp] theorem finish_level (s : State) : (finish s).level = s.level := rfl
@[simp] theorem finish_latency (s : State) : (finish s).latency = s.latency := rfl
@[simp] theorem finish_hostTurns (s : State) : (finish s).hostTurns = s.hostTurns := rfl
@[simp] theorem finish_draws (s : State) : (finish s).draws = s.draws := rfl
@[simp] theorem finish_host (s : State) : (finish s).host = s.host := rfl
@[simp] theorem finish_rdata (s : State) : (finish s).rdata = s.rdata := rfl

/-! ### accept -/
@[simp] theorem accept_regs (op : Pending) (i : Instr) (s : State) :
    (accept op i s).regs = { s.regs with status := acceptStatus s.regs.status } := rfl
@[simp] theorem accept_pending (op : Pending) (i : Instr) (s : State) : (accept op i s).pending = op := rfl
@[simp] theorem accept_phase (op : Pending) (i : Instr) (s : State) : (accept op i s).phase = .start := rfl
@[simp] theorem accept_work (op : Pending) (i : Instr) (s : State) : (accept op i s).work = s.work := rfl
@[simp] theorem accept_level (op : Pending) (i : Instr) (s : State) : (accept op i s).level = s.level := rfl
@[simp] theorem accept_latency (op : Pending) (i : Instr) (s : State) : (accept op i s).latency = Config.latency i s.draws := rfl
@[simp] theorem accept_hostTurns (op : Pending) (i : Instr) (s : State) : (accept op i s).hostTurns = Config.hostBurst s.draws := rfl
@[simp] theorem accept_draws (op : Pending) (i : Instr) (s : State) : (accept op i s).draws = s.draws + 1 := rfl
@[simp] theorem accept_host (op : Pending) (i : Instr) (s : State) : (accept op i s).host = s.host := rfl
@[simp] theorem accept_rdata (op : Pending) (i : Instr) (s : State) : (accept op i s).rdata = s.rdata := rfl

/-! ### applyReset -/
@[simp] theorem applyReset_regs (s : State) : (applyReset s).regs = resetRegs := rfl
@[simp] theorem applyReset_pending (s : State) : (applyReset s).pending = .none := rfl
@[simp] theorem applyReset_phase (s : State) : (applyReset s).phase = .idle := rfl
@[simp] theorem applyReset_work (s : State) : (applyReset s).work = freeWork s.draws := rfl
@[simp] theorem applyReset_level (s : State) : (applyReset s).level = s.level := rfl
@[simp] theorem applyReset_latency (s : State) : (applyReset s).latency = s.latency := rfl
@[simp] theorem applyReset_hostTurns (s : State) : (applyReset s).hostTurns = s.hostTurns := rfl
@[simp] theorem applyReset_draws (s : State) : (applyReset s).draws = s.draws + 7 := rfl
@[simp] theorem applyReset_host (s : State) : (applyReset s).host = s.host := rfl
@[simp] theorem applyReset_rdata (s : State) : (applyReset s).rdata = s.rdata := rfl

/-! ### hostRead -/
@[simp] theorem hostRead_regs (off : Nat) (s : State) : (hostRead off s).regs = s.regs := rfl
@[simp] theorem hostRead_pending (off : Nat) (s : State) : (hostRead off s).pending = s.pending := rfl
@[simp] theorem hostRead_phase (off : Nat) (s : State) : (hostRead off s).phase = s.phase := rfl
@[simp] theorem hostRead_work (off : Nat) (s : State) : (hostRead off s).work = s.work := rfl
@[simp] theorem hostRead_level (off : Nat) (s : State) : (hostRead off s).level = s.level := rfl
@[simp] theorem hostRead_latency (off : Nat) (s : State) : (hostRead off s).latency = s.latency := rfl
@[simp] theorem hostRead_hostTurns (off : Nat) (s : State) : (hostRead off s).hostTurns = s.hostTurns := rfl
@[simp] theorem hostRead_draws (off : Nat) (s : State) :
    (hostRead off s).draws = if s.regs.status.busy ∧ readsAlways (regAt off) = false then s.draws + 1 else s.draws := rfl
@[simp] theorem hostRead_host (off : Nat) (s : State) : (hostRead off s).host = s.host := rfl
@[simp] theorem hostRead_rdata (off : Nat) (s : State) : (hostRead off s).rdata = regRead off s := rfl

/-! ### takeHost -/
@[simp] theorem takeHost_regs (s : State) : (takeHost s).regs = s.regs := rfl
@[simp] theorem takeHost_pending (s : State) : (takeHost s).pending = s.pending := rfl
@[simp] theorem takeHost_phase (s : State) : (takeHost s).phase = s.phase := rfl
@[simp] theorem takeHost_work (s : State) : (takeHost s).work = s.work := rfl
@[simp] theorem takeHost_level (s : State) : (takeHost s).level = s.level := rfl
@[simp] theorem takeHost_latency (s : State) : (takeHost s).latency = s.latency := rfl
@[simp] theorem takeHost_hostTurns (s : State) : (takeHost s).hostTurns = s.hostTurns - 1 := rfl
@[simp] theorem takeHost_draws (s : State) : (takeHost s).draws = s.draws := rfl
@[simp] theorem takeHost_host (s : State) : (takeHost s).host = s.host.tail := rfl
@[simp] theorem takeHost_rdata (s : State) : (takeHost s).rdata = s.rdata := rfl

/-! ### giveEngine -/
@[simp] theorem giveEngine_regs (s : State) : (giveEngine s).regs = s.regs := rfl
@[simp] theorem giveEngine_pending (s : State) : (giveEngine s).pending = s.pending := rfl
@[simp] theorem giveEngine_phase (s : State) : (giveEngine s).phase = s.phase := rfl
@[simp] theorem giveEngine_work (s : State) : (giveEngine s).work = s.work := rfl
@[simp] theorem giveEngine_level (s : State) : (giveEngine s).level = s.level := rfl
@[simp] theorem giveEngine_latency (s : State) : (giveEngine s).latency = s.latency := rfl
@[simp] theorem giveEngine_hostTurns (s : State) : (giveEngine s).hostTurns = Config.hostBurst s.draws := rfl
@[simp] theorem giveEngine_draws (s : State) : (giveEngine s).draws = s.draws + 1 := rfl
@[simp] theorem giveEngine_host (s : State) : (giveEngine s).host = s.host := rfl
@[simp] theorem giveEngine_rdata (s : State) : (giveEngine s).rdata = s.rdata := rfl

/-! ### succeeded -/
@[simp] theorem succeeded_regs (s : State) (r : HostRegs) (w : Work) :
    (succeeded s r w).regs = { r with status := { busy := false, done := true, err := s.regs.status.err, errinfo := s.regs.status.errinfo } } := rfl
@[simp] theorem succeeded_pending (s : State) (r : HostRegs) (w : Work) : (succeeded s r w).pending = .none := rfl
@[simp] theorem succeeded_phase (s : State) (r : HostRegs) (w : Work) : (succeeded s r w).phase = .idle := rfl
@[simp] theorem succeeded_work (s : State) (r : HostRegs) (w : Work) : (succeeded s r w).work = w := rfl
@[simp] theorem succeeded_level (s : State) (r : HostRegs) (w : Work) : (succeeded s r w).level = s.level := rfl
@[simp] theorem succeeded_latency (s : State) (r : HostRegs) (w : Work) : (succeeded s r w).latency = s.latency := rfl
@[simp] theorem succeeded_hostTurns (s : State) (r : HostRegs) (w : Work) : (succeeded s r w).hostTurns = s.hostTurns := rfl
@[simp] theorem succeeded_draws (s : State) (r : HostRegs) (w : Work) : (succeeded s r w).draws = s.draws := rfl
@[simp] theorem succeeded_host (s : State) (r : HostRegs) (w : Work) : (succeeded s r w).host = s.host := rfl
@[simp] theorem succeeded_rdata (s : State) (r : HostRegs) (w : Work) : (succeeded s r w).rdata = s.rdata := rfl

/-! ### failed -/
@[simp] theorem failed_regs (s : State) (k : ErrorKind) (info : Byte) :
    (failed s k info).regs = { s.regs with status := { busy := false, done := false, err := some k, errinfo := info } } := rfl
@[simp] theorem failed_pending (s : State) (k : ErrorKind) (info : Byte) : (failed s k info).pending = .none := rfl
@[simp] theorem failed_phase (s : State) (k : ErrorKind) (info : Byte) : (failed s k info).phase = .idle := rfl
@[simp] theorem failed_work (s : State) (k : ErrorKind) (info : Byte) : (failed s k info).work = s.work := rfl
@[simp] theorem failed_level (s : State) (k : ErrorKind) (info : Byte) : (failed s k info).level = s.level := rfl
@[simp] theorem failed_latency (s : State) (k : ErrorKind) (info : Byte) : (failed s k info).latency = s.latency := rfl
@[simp] theorem failed_hostTurns (s : State) (k : ErrorKind) (info : Byte) : (failed s k info).hostTurns = s.hostTurns := rfl
@[simp] theorem failed_draws (s : State) (k : ErrorKind) (info : Byte) : (failed s k info).draws = s.draws := rfl
@[simp] theorem failed_host (s : State) (k : ErrorKind) (info : Byte) : (failed s k info).host = s.host := rfl
@[simp] theorem failed_rdata (s : State) (k : ErrorKind) (info : Byte) : (failed s k info).rdata = s.rdata := rfl

/-! ### The status writes -/
@[simp] theorem acceptStatus_busy (st : Status) : (acceptStatus st).busy = true := rfl
@[simp] theorem acceptStatus_done (st : Status) : (acceptStatus st).done = false := rfl
@[simp] theorem acceptStatus_err (st : Status) : (acceptStatus st).err = st.err := rfl
@[simp] theorem acceptStatus_errinfo (st : Status) : (acceptStatus st).errinfo = st.errinfo := rfl
@[simp] theorem finishStatus_busy (st : Status) : (finishStatus st).busy = false := rfl
@[simp] theorem finishStatus_done (st : Status) : (finishStatus st).done = true := rfl
@[simp] theorem finishStatus_err (st : Status) : (finishStatus st).err = st.err := rfl
@[simp] theorem finishStatus_errinfo (st : Status) : (finishStatus st).errinfo = st.errinfo := rfl
@[simp] theorem errorStatus_busy (k : ErrorKind) (info : Byte) : (errorStatus k info).busy = false := rfl
@[simp] theorem errorStatus_done (k : ErrorKind) (info : Byte) : (errorStatus k info).done = false := rfl
@[simp] theorem errorStatus_err (k : ErrorKind) (info : Byte) : (errorStatus k info).err = some k := rfl
@[simp] theorem errorStatus_errinfo (k : ErrorKind) (info : Byte) : (errorStatus k info).errinfo = info := rfl

@[simp] theorem clearStatus_busy (st : Status) : (clearStatus st).busy = st.busy := by
  unfold clearStatus; split <;> (try split) <;> rfl

@[simp] theorem clearStatus_done (st : Status) : (clearStatus st).done = st.done := by
  unfold clearStatus; split <;> (try split) <;> rfl

/-- Every working-register write of Emit, the PEND step and START leaves the other working registers (48_serial_engine.md
R261 to R263). -/
@[simp] theorem emitRun_crc (b d : Bool) (w : Work) : (emitRun b d w).crc = w.crc := by
  unfold emitRun; split <;> (try split) <;> (try split) <;> rfl

@[simp] theorem emitRun_cnt (b d : Bool) (w : Work) : (emitRun b d w).cnt = w.cnt := by
  unfold emitRun; split <;> (try split) <;> (try split) <;> rfl

@[simp] theorem emitRun_slen (b d : Bool) (w : Work) : (emitRun b d w).slen = w.slen := by
  unfold emitRun; split <;> (try split) <;> (try split) <;> rfl

@[simp] theorem emitRun_last (b d : Bool) (w : Work) : (emitRun b d w).last = w.last := by
  unfold emitRun; split <;> (try split) <;> (try split) <;> rfl

@[simp] theorem emitRun_outidx (b d : Bool) (w : Work) : (emitRun b d w).outidx = w.outidx := by
  unfold emitRun; split <;> (try split) <;> (try split) <;> rfl

@[simp] theorem emitRun_sr (b d : Bool) (w : Work) : (emitRun b d w).sr = w.sr := by
  unfold emitRun; split <;> (try split) <;> (try split) <;> rfl

@[simp] theorem emitRun_line (b : Bool) (w : Work) : emitRun b false w = w := rfl

@[simp] theorem emit_crc (b d : Bool) (w : Work) : (emit b d w).crc = w.crc := by simp [emit, emitLine]

@[simp] theorem emit_cnt (b d : Bool) (w : Work) : (emit b d w).cnt = w.cnt := by simp [emit, emitLine]

@[simp] theorem emit_slen (b d : Bool) (w : Work) : (emit b d w).slen = w.slen := by simp [emit, emitLine]

@[simp] theorem emit_run (b d : Bool) (w : Work) : (emit b d w).run = (emitRun b d w).run := rfl

@[simp] theorem emit_pend (b d : Bool) (w : Work) : (emit b d w).pend = (emitRun b d w).pend := rfl

@[simp] theorem emit_last (b d : Bool) (w : Work) : (emit b d w).last = nrziStep w.last b := by
  simp [emit, emitLine]

@[simp] theorem emit_outidx (b d : Bool) (w : Work) : (emit b d w).outidx = w.outidx + 1 := by
  simp [emit, emitLine]

@[simp] theorem emit_sr (b d : Bool) (w : Work) :
    (emit b d w).sr = w.sr.setIfInBounds w.outidx (nrziStep w.last b) := by
  simp [emit, emitLine]

end Sys2Proof.Machine
end

