-- ==== Sys2Proof/Laws/Ops.lean ====
section
/-! SUPPORT. What each shared operation can do, said once: the bodies, completion, the engine commands, the port, the step. -/
namespace Sys2Proof.Machine

/-- PACK's body (47_commands.md R232): the range error with nothing written, or PAY and PAYLEN written. -/
theorem packBody_eq (s : State) :
    packBody s =
      if rangeBad (mmsiVal s.regs) (latVal s.regs) (lonVal s.regs) ≠ 0#8 then
        .raised s .valueOutOfRangeError (rangeBad (mmsiVal s.regs) (latVal s.regs) (lonVal s.regs))
      else
        .done { s with regs := { s.regs with
          pay := payOf (packType1 (mmsiVal s.regs) (lonVal s.regs) (latVal s.regs)), paylen := 168#8 } } := by
  simp [packBody, doPack, Config.rangePolicy, Config.payloadBits]

/-- FrameEncode is the overflow error or the frame; the assertion is unreachable (47_commands.md R238). -/
theorem frameEncode_eq (p : Bits) :
    frameEncode p =
      if 216 < stuffedLength p then
        .error { kind := .frameOverflowError, info := BitVec.ofNat 8 (stuffedLength p) }
      else
        .ok { coded := codedFrame p, crcValue := crc16X25 (bytesOf p), stuffedLength := stuffedLength p } := by
  have hx : stuff (revBytes (p ++ crcField (crc16X25 (bytesOf p)))) = stuff (txData p) := rfl
  unfold frameEncode
  simp only [hx, overflows_iff]
  split
  · rfl
  · rw [if_neg]
    simp [assemble_length_of_fits (stuff (txData p)) (by omega), Config.frameBits]

/-- FRAME's body (47_commands.md R233). -/
theorem frameBody_eq (s : State) :
    frameBody s =
      if s.regs.paylen ≠ 168#8 then .raised s .payloadFormatError s.regs.paylen
      else if 216 < stuffedLength (payBits s.regs) then
        .raised s .frameOverflowError (BitVec.ofNat 8 (stuffedLength (payBits s.regs)))
      else
        .done { s with
          regs := { s.regs with
            frm := frmOf (codedFrame (payBits s.regs))
            crcval := crc16X25 (bytesOf (payBits s.regs))
            stufflen := BitVec.ofNat 8 (stuffedLength (payBits s.regs)) }
          work := framedWork (payBits s.regs) s.work } := by
  have hp : paylenVal s.regs ≠ Config.payloadBits ↔ s.regs.paylen ≠ 168#8 := by
    simp only [paylenVal, Config.payloadBits, ne_eq, ← BitVec.toNat_inj]
    exact Iff.rfl
  unfold frameBody
  simp only [hp, frameEncode_eq]
  by_cases hl : s.regs.paylen = 168#8
  · by_cases hf : 216 < stuffedLength (payBits s.regs) <;> simp [hl, hf]
  · simp [hl]

/-- CRC's body (47_commands.md R235). -/
theorem crcBody_eq (s : State) :
    crcBody s =
      if s.regs.paylen.toNat % 8 ≠ 0 ∨ 168 < s.regs.paylen.toNat then .raised s .payloadFormatError s.regs.paylen
      else
        .done { s with
          regs := { s.regs with crcval := crc16X25 (crcInput s.regs) }
          work := { s.work with crc := crcRegister (crcInput s.regs) } } := by
  simp [crcBody, crcLengthBad, paylenVal, Config.payloadBits]

/-- Complete (47_commands.md R237) is success with the body's writes or the error entry. -/
theorem complete_cases (e : BodyEnd) :
    (∃ t, e = .done t ∧ complete e = finish t) ∨ (∃ t k i, e = .raised t k i ∧ complete e = errorEntry k i t) := by
  cases e with
  | done t => exact .inl ⟨t, rfl, rfl⟩
  | raised t k i => exact .inr ⟨t, k, i, rfl, rfl⟩

/-- What an engine command can do (47_commands.md R230, R237). -/
theorem engineCommand_cases {op : Pending} {i : Instr} {body : State → BodyEnd} {s t : State}
    (h : engineCommand op i body s = .next t) :
    (s.regs.status.busy = true ∧ s.pending = op ∧ t = engineStep body s)
      ∨ (s.regs.status.busy = true ∧ s.pending ≠ op ∧ t = s)
      ∨ (s.regs.status.busy = false ∧ s.regs.status.err ≠ none ∧ t = s)
      ∨ (s.regs.status.busy = false ∧ s.regs.status.err = none ∧ t = accept op i s) := by
  unfold engineCommand at h
  split at h
  · split at h <;> simp_all
  · split at h <;> simp_all

/-- What an engine step can do: completion, a step of the count, or a serial step. -/
theorem engineStep_cases (body : State → BodyEnd) (s : State) :
    (s.level = .functional ∧ s.latency = 0 ∧ engineStep body s = complete (body s))
      ∨ (s.level = .functional ∧ s.latency ≠ 0 ∧ engineStep body s = { s with latency := s.latency - 1 })
      ∨ (s.level = .serial ∧ engineStep body s = serialStep s) := by
  unfold engineStep
  split
  · by_cases hl : s.latency = 0 <;> simp_all
  · simp_all

/-- The bodies of the commands, by the latch (47_commands.md R237). -/
theorem exec_pending (s : State) (i : Instr) (h : pendingInstr s.pending = some i) :
    exec i s = engineCommand s.pending i (pendingBody s.pending) s := by
  cases hp : s.pending <;> simp_all [pendingInstr] <;> subst h <;> rfl

/-- Every command answers a next state, in every state: no command of this hardware stops the machine. -/
theorem exec_answers (i : Instr) (s : State) : ∃ t, exec i s = .next t := by
  cases i <;> simp only [exec, execNop, execClrerr, execPack, execFrame, execPackframe, execCrc, engineCommand] <;>
    (try split) <;> (try split) <;> exact ⟨_, rfl⟩

/-- While BUSY a write is dropped (20_memory.md R62). -/
theorem regWrite_busy (off : Nat) (v : Word) (s : State) (h : s.regs.status.busy = true) :
    regWrite off v s = .next s := by simp [regWrite, h]

/-- The one offset of CMD (10_state.md R20). -/
theorem regAt_cmd (off : Nat) : regAt off = .cmd ↔ off = 0 := by
  unfold regAt
  split <;> simp_all

/-- An operand write leaves STATUS and the result registers (20_memory.md R62). -/
@[simp] theorem writeReg_status (g : Reg) (v : Word) (r : HostRegs) : (writeReg g v r).status = r.status := by
  cases g <;> rfl

@[simp] theorem writeReg_crcval (g : Reg) (v : Word) (r : HostRegs) : (writeReg g v r).crcval = r.crcval := by
  cases g <;> rfl

@[simp] theorem writeReg_stufflen (g : Reg) (v : Word) (r : HostRegs) : (writeReg g v r).stufflen = r.stufflen := by
  cases g <;> rfl

@[simp] theorem writeReg_frm (g : Reg) (v : Word) (r : HostRegs) : (writeReg g v r).frm = r.frm := by
  cases g <;> rfl

/-- The access goes on exactly when the block defines it (20_memory.md R63, R64). -/
theorem checked_next {off width : Nat} {go : Result} {t : State} (h : checked off width go = .next t) :
    accessOk off width = true ∧ go = .next t := by
  unfold checked at h
  split at h
  · cases h
  · split at h
    · cases h
    · split at h
      · cases h
      · simp_all [accessOk]

theorem checked_ok {off width : Nat} (go : Result) (h : accessOk off width = true) : checked off width go = go := by
  simp only [accessOk, Bool.and_eq_true] at h
  simp [checked, h]

/-- When the host moves next the step is its operation on the state with that operation taken. -/
theorem step_host {s : State} {op : HostOp} {rest : List HostOp} (h : HostNext s op rest) :
    step s = hostOp op (afterHost s rest) := by
  obtain ⟨hh, hb⟩ := h
  have : nextAgent s = .host := by cases hbb : s.regs.status.busy <;> simp_all [nextAgent]
  simp [step, turn, this, hostTurn, hh, takeHost]

/-- When the engine moves next the step is a step of the command in the latch. -/
theorem step_engine {s : State} (h : EngineNext s) : step s = engineTurn s := by
  obtain ⟨hb, hh⟩ := h
  have : nextAgent s = .engine := by rcases hh with hh | hh <;> simp [nextAgent, hb, hh]
  simp [step, turn, this]

/-- What a step can do: nothing, a host operation, or a step of the command in the latch (00_scope.md R7). -/
theorem step_cases {s t : State} (h : step s = .next t) :
    (s.regs.status.busy = false ∧ s.host = [] ∧ t = s)
      ∨ (∃ op rest, s.host = op :: rest ∧ (s.regs.status.busy = false ∨ s.hostTurns ≠ 0)
          ∧ hostOp op (takeHost s) = .next t)
      ∨ (s.regs.status.busy = true ∧ (s.host = [] ∨ s.hostTurns = 0) ∧ pendingInstr s.pending = none
          ∧ t = giveEngine s)
      ∨ (s.regs.status.busy = true ∧ (s.host = [] ∨ s.hostTurns = 0)
          ∧ ∃ i, pendingInstr s.pending = some i ∧ exec i (giveEngine s) = .next t) := by
  unfold step turn nextAgent hostTurn engineTurn at h
  cases hb : s.regs.status.busy <;> cases hh : s.host <;> simp_all
  · by_cases hp : pendingInstr s.pending = none
    · simp_all
    · obtain ⟨i, hi⟩ := Option.ne_none_iff_exists'.mp hp
      simp_all
  · by_cases ht : s.hostTurns = 0
    · by_cases hp : pendingInstr s.pending = none
      · simp_all
      · obtain ⟨i, hi⟩ := Option.ne_none_iff_exists'.mp hp
        simp_all
    · simp_all

/-- What an engine turn can do: nothing by an empty latch, a completion, a step of the count, or a serial step. -/
theorem engineTurn_cases {s t : State} (hb : s.regs.status.busy = true) {i : Instr}
    (hi : pendingInstr s.pending = some i) (h : exec i (giveEngine s) = .next t) :
    t = engineStep (pendingBody s.pending) (giveEngine s) := by
  rw [exec_pending (giveEngine s) i (by simpa using hi)] at h
  rcases engineCommand_cases h with ⟨_, _, ht⟩ | ⟨_, hne, _⟩ | ⟨hf, _⟩ | ⟨hf, _⟩
  · simpa using ht
  · exact absurd rfl hne
  · simp_all
  · simp_all

end Sys2Proof.Machine
end

