-- ==== Sys2Proof/Laws/PerInstr.lean ====
section
/-! SUPPORT. Statements made per command. -/
namespace Sys2Proof.Laws

/-- A command is well-formed, its word has RSV = 0, and decoding its word gives it back (30_encoding.md R90, R91). -/
def Encoding.Statement (i : Instr) : Prop := i.wf = true ∧ rsvField (encode i) = 0#28 ∧ decode (encode i) = .ok i

theorem Encoding.nop : Encoding.Statement .nop := ⟨rfl, rfl, rfl⟩
theorem Encoding.pack : Encoding.Statement .pack := ⟨rfl, rfl, rfl⟩
theorem Encoding.frame : Encoding.Statement .frame := ⟨rfl, rfl, rfl⟩
theorem Encoding.packframe : Encoding.Statement .packframe := ⟨rfl, rfl, rfl⟩
theorem Encoding.crc : Encoding.Statement .crc := ⟨rfl, rfl, rfl⟩
theorem Encoding.clrerr : Encoding.Statement .clrerr := ⟨rfl, rfl, rfl⟩

end Sys2Proof.Laws
end

