-- ==== Sys2Proof/Tests/Slice0.lean ====
section
/-! SUPPORT. The model's own tests: expected values are the spec's (95_test_vectors.md and the rules named), never the
model's; and, for every statement with hypotheses, a state and operands that meet them (names beginning meets_). -/
namespace Sys2Proof.Tests
open Sys2Proof Sys2Proof.Machine

/-! ## Helpers -/

/-- The machine after reset with these host-visible registers. -/
def idle (r : HostRegs) : State := { State.reset with regs := r }

/-- The status while a command runs. -/
def busyStatus : Status := { busy := true, done := false, err := none, errinfo := 0#8 }

/-- The status with an error recorded. -/
def errStatus (k : ErrorKind) (info : Byte) : Status := { busy := false, done := false, err := some k, errinfo := info }

/-- The status after a success. -/
def doneStatus : Status := { busy := false, done := true, err := none, errinfo := 0#8 }

/-- The machine with this command accepted, at its completing step (Level F). -/
def running (op : Pending) (r : HostRegs) : State :=
  { State.reset with regs := { r with status := busyStatus }, pending := op, phase := .start }

/-- The same with a bit-serial engine. -/
def serial (op : Pending) (r : HostRegs) : State := { running op r with level := .serial }

/-- A host with these operations still to come. -/
def asked (ops : List HostOp) (s : State) : State := { s with host := ops, hostTurns := 3 }

/-- The state a result holds. -/
def nextOf (r : Result) : State :=
  match r with
  | .next t => t
  | _ => State.reset

def operands (m la lo : Word) : HostRegs := { resetRegs with mmsi := m, lat := la, lon := lo }

def payload (len : Byte) (p : Vector Word 6) : HostRegs := { resetRegs with paylen := len, pay := p }

/-- V-FA2, all ones but bit 9: the longest payload that fits. -/
def fits216 : Vector Word 6 := #v[0xFFBFFFFF, 0xFFFFFFFF, 0xFFFFFFFF, 0xFFFFFFFF, 0xFFFFFFFF, 0xFF000000]

/-- V-FA6: the longest stuffed length, 220. -/
def over220 : Vector Word 6 := #v[0xDFFFFFFF, 0xFFFFF7FF, 0xFFFFFFFF, 0xFFFFFF7F, 0xFFFFFFFF, 0xFF000000]

/-- V-FA3, all ones: one bit too long. -/
def over217 : Vector Word 6 := #v[0xFFFFFFFF, 0xFFFFFFFF, 0xFFFFFFFF, 0xFFFFFFFF, 0xFFFFFFFF, 0xFF000000]

/-- The ASCII bytes 123456789 (41_crc.md R157). -/
def ascii : Vector Word 6 := #v[0x31323334, 0x35363738, 0x39000000, 0, 0, 0]

/-- The source's example report (V-PK1). -/
def example1 : HostRegs := operands 0x075BCD15 0x01B3D908 0xFBA00424

/-! ## Well-formedness: an ill-formed operation for each check -/

theorem test_wf_refuses_outside_window : HostOp.wf (.read 128 4) = false := by decide
theorem test_wf_refuses_width : HostOp.wf (.write 8 2 0) = false := by decide
theorem test_wf_refuses_misaligned : HostOp.wf (.read 6 4) = false := by decide
theorem test_wf_accepts_last_word : HostOp.wf (.read 0x7C 4) = true := by decide
theorem test_wf_accepts_commands : Instr.wf .packframe = true := by decide

/-! ## Decoding: words written out from 30_encoding.md R90, R91 -/

theorem test_decode_nop : decode 0b00000000000000000000000000000000#32 = .ok .nop := rfl
theorem test_decode_pack : decode 0b00000000000000000000000000000001#32 = .ok .pack := rfl
theorem test_decode_frame : decode 0b00000000000000000000000000000010#32 = .ok .frame := rfl
theorem test_decode_packframe : decode 0b00000000000000000000000000000011#32 = .ok .packframe := rfl
theorem test_decode_crc : decode 0b00000000000000000000000000000100#32 = .ok .crc := rfl
theorem test_decode_clrerr : decode 0b00000000000000000000000000000101#32 = .ok .clrerr := rfl
/-- V-CM9, V-CM10: reserved opcodes. -/
theorem test_decode_reserved_opcodes :
    decode 0x00000006#32 = .error .reservedOpcode ∧ decode 0x0000000F#32 = .error .reservedOpcode := ⟨rfl, rfl⟩
/-- V-CM11, V-CM12, V-CM18: reserved bits, whatever OP. -/
theorem test_decode_reserved_bits :
    decode 0x00000102#32 = .error .reservedBits ∧ decode 0x80000000#32 = .error .reservedBits
      ∧ decode 0x00000015#32 = .error .reservedBits := ⟨rfl, rfl, rfl⟩

/-! ## The first step after reset runs the presented command -/

theorem test_step_runs_nop : step (State.reset.withFetchWord 32 0) = exec .nop State.reset := by rfl
theorem test_step_accepts_pack : (nextOf (step (State.reset.withFetchWord 32 1))).pending = .pack := by decide
theorem test_step_accepts_frame : (nextOf (step (State.reset.withFetchWord 32 2))).pending = .frame := by decide
theorem test_step_accepts_packframe : (nextOf (step (State.reset.withFetchWord 32 3))).pending = .packframe := by decide
theorem test_step_accepts_crc : (nextOf (step (State.reset.withFetchWord 32 4))).pending = .crc := by decide
theorem test_step_runs_clrerr : step (State.reset.withFetchWord 32 5) = exec .clrerr State.reset := by rfl

/-! ## Issue and errors (95_test_vectors.md 2.8): STATUS after the step -/

def statusAfterWrite (w : Word) (s : State) : Word :=
  statusWord (nextOf (step (asked [.write 0 4 w] s))).regs.status

/-- V-CM9, V-CM11, V-CM12. -/
theorem test_illcmd_status :
    statusAfterWrite 0x6 State.reset = 0x00000650#32 ∧ statusAfterWrite 0x102 State.reset = 0x00000250#32
      ∧ statusAfterWrite 0x80000000 State.reset = 0x00000050#32 := by decide
/-- V-CM13, V-CM14, V-CM15. -/
theorem test_done_survives_nop_and_clrerr :
    statusAfterWrite 6 (idle { resetRegs with status := doneStatus }) = 0x00000650#32
      ∧ statusAfterWrite 0 (idle { resetRegs with status := doneStatus }) = 0x00000002#32
      ∧ statusAfterWrite 5 (idle { resetRegs with status := doneStatus }) = 0x00000002#32 := by decide
/-- V-CM16 to V-CM19. -/
theorem test_pending_error :
    statusAfterWrite 3 (idle { resetRegs with status := errStatus .payloadFormatError 0 }) = 0x00000010#32
      ∧ statusAfterWrite 6 (idle { resetRegs with status := errStatus .payloadFormatError 0 }) = 0x00000010#32
      ∧ statusAfterWrite 0x105 (idle { resetRegs with status := errStatus .payloadFormatError 0 }) = 0x00000010#32
      ∧ statusAfterWrite 5 (idle { resetRegs with status := errStatus .payloadFormatError 0 }) = 0x00000000#32 := by decide
/-- 47_commands.md R236: code 4 is fatal. -/
theorem test_assertion_survives_clrerr :
    statusAfterWrite 5 (idle { resetRegs with status := errStatus .assertionFailure 1 }) = 0x00000140#32 := by decide
/-- V-CM8: PAYLEN keeps bits 7:0 of 0x1A8. -/
theorem test_paylen_keeps_low_byte :
    regRead 0x14 (nextOf (step (asked [.write 0x14 4 0x1A8#32] State.reset))) = 0x000000A8#32 := by decide
/-- V-FA5: PAY5[23:0] stays 0. -/
theorem test_pay5_reserved_bits :
    regRead 0x34 (nextOf (step (asked [.write 0x34 4 0xFF0000FF#32] State.reset))) = 0xFF000000#32 := by decide

/-! ## The commands at completion (95_test_vectors.md 2.1 to 2.7) -/

/-- V-PK1. -/
theorem test_pack_example :
    (nextOf (exec .pack (running .pack example1))).regs.pay.toList
      = [0x041D6F34#32, 0x54000005#32, 0xD002121B#32, 0x3D908000#32, 0#32, 0#32] := by decide +kernel
/-- V-RG11. -/
theorem test_pack_all_out_of_range :
    statusWord (nextOf (exec .pack (running .pack (operands 0xFFFFFFFF 0x80000000 0x7FFFFFFF)))).regs.status
      = 0x00000720#32 := by decide +kernel
/-- V-FA2: the boundary, no padding. -/
theorem test_frame_fits :
    (nextOf (exec .frame (running .frame (payload 168 fits216)))).regs.frm.toList
      = [0x666666FE#32, 0x07E0FC0F#32, 0xC0FC0FC0#32, 0xFC0FC0FC#32, 0x0FC0FC0F#32, 0xC0FC0FC0#32, 0xFC0FC0FC#32,
         0x0F055AFE#32] := by decide +kernel
/-- V-FA6. -/
theorem test_frame_overflow :
    statusWord (nextOf (exec .frame (running .frame (payload 168 over220)))).regs.status = 0x0000DC30#32 := by
  decide +kernel
/-- V-FA7, P1. -/
theorem test_packframe_example :
    (nextOf (exec .packframe (running .packframe example1))).regs.frm.toList
      = [0x666666FE#32, 0x9585F162#32, 0x99555595#32, 0x58D525C5#32, 0x82A4AB55#32, 0x55555555#32, 0x552DC080#32,
         0xAAAAAAAA#32] := by decide +kernel
/-- V-RG5 with PACKFRAME (P3). -/
theorem test_packframe_latitude_91 :
    statusWord (nextOf (exec .packframe (running .packframe (operands 0x3FFFFFFF 0x03412140 0x066FF300)))).regs.status
      = 0x00000220#32 := by decide +kernel
/-- 41_crc.md R157, V-CRC11: the source's check value. -/
theorem test_crc_check_value :
    (nextOf (exec .crc (running .crc (payload 72 ascii)))).regs.crcval = 0x906E#16 := by decide +kernel
/-- V-CRC2 and 95_test_vectors.md 2.3: no bytes; a length that is no multiple of 8. -/
theorem test_crc_lengths :
    (nextOf (exec .crc (running .crc (payload 0 ascii)))).regs.crcval = 0#16
      ∧ statusWord (nextOf (exec .crc (running .crc (payload 7 ascii)))).regs.status = 0x00000710#32 := by decide +kernel

/-! ## The stages -/

/-- Entries 0 to 63 of the listing of 41_crc.md R151. -/
def listing0 : List Half :=
  [0x0000, 0x1189, 0x2312, 0x329B, 0x4624, 0x57AD, 0x6536, 0x74BF,
   0x8C48, 0x9DC1, 0xAF5A, 0xBED3, 0xCA6C, 0xDBE5, 0xE97E, 0xF8F7,
   0x1081, 0x0108, 0x3393, 0x221A, 0x56A5, 0x472C, 0x75B7, 0x643E,
   0x9CC9, 0x8D40, 0xBFDB, 0xAE52, 0xDAED, 0xCB64, 0xF9FF, 0xE876,
   0x2102, 0x308B, 0x0210, 0x1399, 0x6726, 0x76AF, 0x4434, 0x55BD,
   0xAD4A, 0xBCC3, 0x8E58, 0x9FD1, 0xEB6E, 0xFAE7, 0xC87C, 0xD9F5,
   0x3183, 0x200A, 0x1291, 0x0318, 0x77A7, 0x662E, 0x54B5, 0x453C,
   0xBDCB, 0xAC42, 0x9ED9, 0x8F50, 0xFBEF, 0xEA66, 0xD8FD, 0xC974]

/-- Entries 64 to 127 of the listing of 41_crc.md R151. -/
def listing1 : List Half :=
  [0x4204, 0x538D, 0x6116, 0x709F, 0x0420, 0x15A9, 0x2732, 0x36BB,
   0xCE4C, 0xDFC5, 0xED5E, 0xFCD7, 0x8868, 0x99E1, 0xAB7A, 0xBAF3,
   0x5285, 0x430C, 0x7197, 0x601E, 0x14A1, 0x0528, 0x37B3, 0x263A,
   0xDECD, 0xCF44, 0xFDDF, 0xEC56, 0x98E9, 0x8960, 0xBBFB, 0xAA72,
   0x6306, 0x728F, 0x4014, 0x519D, 0x2522, 0x34AB, 0x0630, 0x17B9,
   0xEF4E, 0xFEC7, 0xCC5C, 0xDDD5, 0xA96A, 0xB8E3, 0x8A78, 0x9BF1,
   0x7387, 0x620E, 0x5095, 0x411C, 0x35A3, 0x242A, 0x16B1, 0x0738,
   0xFFCF, 0xEE46, 0xDCDD, 0xCD54, 0xB9EB, 0xA862, 0x9AF9, 0x8B70]

/-- Entries 128 to 191 of the listing of 41_crc.md R151. -/
def listing2 : List Half :=
  [0x8408, 0x9581, 0xA71A, 0xB693, 0xC22C, 0xD3A5, 0xE13E, 0xF0B7,
   0x0840, 0x19C9, 0x2B52, 0x3ADB, 0x4E64, 0x5FED, 0x6D76, 0x7CFF,
   0x9489, 0x8500, 0xB79B, 0xA612, 0xD2AD, 0xC324, 0xF1BF, 0xE036,
   0x18C1, 0x0948, 0x3BD3, 0x2A5A, 0x5EE5, 0x4F6C, 0x7DF7, 0x6C7E,
   0xA50A, 0xB483, 0x8618, 0x9791, 0xE32E, 0xF2A7, 0xC03C, 0xD1B5,
   0x2942, 0x38CB, 0x0A50, 0x1BD9, 0x6F66, 0x7EEF, 0x4C74, 0x5DFD,
   0xB58B, 0xA402, 0x9699, 0x8710, 0xF3AF, 0xE226, 0xD0BD, 0xC134,
   0x39C3, 0x284A, 0x1AD1, 0x0B58, 0x7FE7, 0x6E6E, 0x5CF5, 0x4D7C]

/-- Entries 192 to 255 of the listing of 41_crc.md R151. -/
def listing3 : List Half :=
  [0xC60C, 0xD785, 0xE51E, 0xF497, 0x8028, 0x91A1, 0xA33A, 0xB2B3,
   0x4A44, 0x5BCD, 0x6956, 0x78DF, 0x0C60, 0x1DE9, 0x2F72, 0x3EFB,
   0xD68D, 0xC704, 0xF59F, 0xE416, 0x90A9, 0x8120, 0xB3BB, 0xA232,
   0x5AC5, 0x4B4C, 0x79D7, 0x685E, 0x1CE1, 0x0D68, 0x3FF3, 0x2E7A,
   0xE70E, 0xF687, 0xC41C, 0xD595, 0xA12A, 0xB0A3, 0x8238, 0x93B1,
   0x6B46, 0x7ACF, 0x4854, 0x59DD, 0x2D62, 0x3CEB, 0x0E70, 0x1FF9,
   0xF78F, 0xE606, 0xD49D, 0xC514, 0xB1AB, 0xA022, 0x92B9, 0x8330,
   0x7BC7, 0x6A4E, 0x58D5, 0x495C, 0x3DE3, 0x2C6A, 0x1EF1, 0x0F78]

/-- The generated table is the listing of 41_crc.md R151. -/
theorem test_crc_table :
    (List.range 256).map (fun i => crcTable (BitVec.ofNat 8 i)) = listing0 ++ listing1 ++ listing2 ++ listing3 := by
  decide +kernel

/-- 43_bit_stuffing.md R185. -/
theorem test_stuff_corners :
    stuff (bitsOf 4 0b1111) = bitsOf 4 0b1111 ∧ stuff (bitsOf 5 0b11111) = bitsOf 6 0b111110
      ∧ stuff (bitsOf 6 0b111110) = bitsOf 7 0b1111100 ∧ stuff (bitsOf 6 0b111111) = bitsOf 7 0b1111101
      ∧ stuff (bitsOf 10 0b1111011111) = bitsOf 11 0b11110111110 ∧ stuff (bitsOf 8 0b01111110) = bitsOf 9 0b011111010
      ∧ stuff (bitsOf 15 0b011111101111111) = bitsOf 17 0b01111101011111011 := by decide
/-- 45_nrzi.md R214. -/
theorem test_nrzi_corners :
    nrzi (bitsOf 4 0b1111) = bitsOf 4 0 ∧ nrzi (bitsOf 4 0) = bitsOf 4 0b1010
      ∧ nrzi (bitsOf 8 0b00110101) = bitsOf 8 0b10001100 ∧ nrzi (bitsOf 8 0b01111110) = bitsOf 8 0b11111110 := by decide
/-- 42_bit_reversal.md R171. -/
theorem test_reversal : revBytes (bitsOf 16 0b1100101000001111) = bitsOf 16 0b0101001111110000 := by decide
/-- 41_crc.md R154. -/
theorem test_crc_field : crcField 0xFB22#16 = bitsOf 16 0b0010001011111011 := by decide
/-- 40_field_packing.md R132 and 95_test_vectors.md 2.1. -/
theorem test_field : field (-73399260) 28 = bitsOf 28 0xBA00424 ∧ field (-1) 27 = bitsOf 27 0x7FFFFFF := by decide
/-- 40_field_packing.md R130: 47.6062 and -122.3321 degrees. -/
theorem test_scale : scaleDeg 476062 10000 = 28563720 ∧ scaleDeg (-1223321) 10000 = -73399260 := by decide
/-- 43_bit_stuffing.md R184 on the output of R185. -/
theorem test_destuff : destuff (bitsOf 17 0b01111101011111011) = bitsOf 15 0b011111101111111 := by decide

/-! ## Level S, one step (48_serial_engine.md) -/

/-- R264: the first preamble bit is 1, coded 0. -/
theorem test_pre_step :
    (serialStep { serial .frame (payload 168 ascii) with phase := .pre, work := startWork resetWork }).work.outidx = 1 := by
  decide
/-- R263: the owed zero comes before the end flag, and the phase holds. -/
theorem test_pend_step :
    let s := serialStep { serial .frame (payload 168 ascii) with
      phase := .eflag, work := { resetWork with pend := true, slen := 184, outidx := 216, last := false } }
    s.phase = .eflag ∧ s.work.slen = 185 ∧ s.work.outidx = 217 ∧ s.work.last = true ∧ s.work.cnt = 0 := by decide
/-- R269: 40 + L = 257 raises the overflow with L. -/
theorem test_pad_overflow :
    statusWord (serialStep { serial .frame (payload 168 over217) with
      phase := .pad, work := { resetWork with slen := 217, outidx := 257 } }).regs.status = 0x0000D930#32 := by decide
/-- R261, R301: the length is tested at START. -/
theorem test_start_length :
    statusWord (serialStep (serial .frame (payload 72 ascii))).regs.status = 0x00004810#32 := by decide

/-! ## Witnesses: the hypotheses of the statements can be met -/

theorem meets_StepIssuesTheDecodedCommand :
    HostNext (asked [.write 0 4 1] State.reset) (.write 0x00 4 1) [] ∧ decode 1 = .ok .pack
      ∧ (asked [.write 0 4 1] State.reset).regs.status.busy = false := ⟨by decide, rfl, rfl⟩
theorem meets_StepRunsThePendingCommand :
    (EngineNext (running .pack example1) ∧ (running .pack example1).pending = .pack)
      ∧ (EngineNext (running .frame example1) ∧ (running .frame example1).pending = .frame)
      ∧ (EngineNext (running .packframe example1) ∧ (running .packframe example1).pending = .packframe)
      ∧ (EngineNext (running .crc example1) ∧ (running .crc example1).pending = .crc) := by decide
theorem meets_IdleBlockStaysAsItIs : State.reset.regs.status.busy = false ∧ State.reset.host = [] := by decide
theorem meets_IllegalWordRaisesIllcmd :
    let s := asked [.write 0 4 6] State.reset
    HostNext s (.write 0x00 4 6) [] ∧ s.regs.status.busy = false ∧ s.regs.status.err = none ∧ 5 < (6#32).toNat := by decide
theorem meets_PendingErrorRefusesCommands :
    let s := asked [.write 0 4 4] (idle { resetRegs with status := errStatus .illcmd 6 })
    HostNext s (.write 0x00 4 4) [] ∧ s.regs.status.busy = false ∧ s.regs.status.err ≠ none ∧ (4 : Word) ≠ 5#32 := by
  decide
theorem meets_EngineCommandIsAccepted :
    State.reset.regs.status.busy = false ∧ State.reset.regs.status.err = none := by decide
theorem meets_BusyRisesOnlyByAcceptance :
    ∃ s t, step s = .next t ∧ s.regs.status.busy = false ∧ t.regs.status.busy = true :=
  ⟨asked [.write 0 4 1] State.reset, nextOf (step (asked [.write 0 4 1] State.reset)), rfl, rfl, rfl⟩
theorem meets_WaitingEngineChangesNothing :
    let w (op : Pending) : State := { running op example1 with latency := 4 }
    ∀ op ∈ [Pending.pack, Pending.frame, Pending.packframe, Pending.crc],
      (w op).regs.status.busy = true ∧ (w op).level = .functional ∧ (w op).latency = 3 + 1 ∧ (w op).pending = op := by
  decide
theorem meets_ResetInputClearsTheBlock :
    HostNext (asked [.reset] (running .frame (payload 168 fits216))) .reset [] := by decide
theorem meets_ReadChangesNoRegister :
    HostNext (asked [.read 0x7C 4] State.reset) (.read 0x7C 4) [] ∧ 0x7C < 128 ∧ 0x7C % 4 = 0 := by decide
/-- Idle, and the first and last of the offsets from 0x60 on. -/
theorem meets_RegisterReadValues :
    (idle (payload 168 ascii)).regs.status.busy = false
      ∧ ∀ off ∈ [0x60, 0x7C], 0x60 ≤ off ∧ off < 128 ∧ off % 4 = 0 := by decide
/-- Every offset of the window, idle: each clause of the rule. -/
theorem meets_RegWriteRule_idle :
    ∀ k ∈ List.range 32, HostNext (asked [.write (4 * k) 4 7] State.reset) (.write (4 * k) 4 7) [] ∧ 4 * k < 128
      ∧ 4 * k % 4 = 0 ∧ (asked [.write (4 * k) 4 7] State.reset).regs.status.busy = false := by decide
theorem meets_RegWriteRule_busy :
    let s := asked [.write 0x00 4 5] (running .crc example1)
    HostNext s (.write 0x00 4 5) [] ∧ s.regs.status.busy = true := by decide
theorem meets_ReadAfterWrite : Reg.pay 4 ≠ Reg.pay 5 := by decide
theorem meets_BusyHostAccessChangesNothing :
    let s := asked [.write 0x34 4 5] (running .crc example1)
    HostNext s (.write 0x34 4 5) [] ∧ s.regs.status.busy = true ∧ HostOp.wf (.write 0x34 4 5) = true
      ∧ HostOp.write 0x34 4 5 ≠ .reset := by decide
/-- Each clause: while the engine runs, and idle. -/
theorem meets_PollWaitsForTheEngine :
    let b := asked [.poll] (running .crc example1)
    let i := asked [.poll] State.reset
    (HostNext b .poll [] ∧ b.regs.status.busy = true) ∧ (HostNext i .poll [] ∧ i.regs.status.busy = false) := by decide
/-- Each clause at its boundary: the first offset outside, a half-word at the last word, one byte past a word. -/
theorem meets_UndefinedAccessStops :
    (HostNext (asked [.write 128 4 0] State.reset) (.write 128 4 0) [] ∧ 128 ≤ 128)
      ∧ (HostNext (asked [.read 124 2] State.reset) (.read 124 2) [] ∧ 124 < 128 ∧ 2 ≠ 4)
      ∧ (HostNext (asked [.read 125 4] State.reset) (.read 125 4) [] ∧ 125 < 128 ∧ 125 % 4 ≠ 0) := by decide
theorem meets_NopChangesNothing : HostNext (asked [.write 0 4 0] State.reset) (.write 0x00 4 0#32) [] := by decide
theorem meets_ClrerrClearsTheError :
    let s (k : ErrorKind) : State := idle { resetRegs with status := errStatus k 1 }
    (∀ k ∈ [ErrorKind.payloadFormatError, .valueOutOfRangeError, .frameOverflowError, .illcmd],
        (s k).regs.status.busy = false ∧ (s k).regs.status.err = some k ∧ k ≠ .assertionFailure)
      ∧ (s .assertionFailure).regs.status.err = some .assertionFailure ∧ State.reset.regs.status.err = none
      ∧ (running .pack example1).regs.status.busy = true ∧ (0x00000015 : Word) ≠ 5#32 := by decide
/-- The extreme legal operands (V-RG2, V-RG3). -/
theorem meets_PackPacksTheReport :
    let a := running .pack (operands 0x3FFFFFFF 0x0337F980 0x066FF300)
    let b := running .pack (operands 0x3FFFFFFF 0xFCC80680 0xF9900D00)
    Completing a .pack ∧ OperandsInRange a.regs ∧ Completing b .pack ∧ OperandsInRange b.regs := by decide
/-- One unit past each end, and the smallest illegal MMSI (V-RG4, V-RG6, V-RG7, V-RG8, V-RG10), with both commands. -/
theorem meets_PackRejectsOperandsOutOfRange :
    ∀ r ∈ [operands 0 0x0337F981 0, operands 0 0xFCC8067F 0, operands 0 0 0x066FF301, operands 0 0 0xF9900CFF,
        operands 0x40000000 0 0],
      ¬ OperandsInRange r ∧ Completing (running .pack r) .pack ∧ Completing (running .packframe r) .packframe := by decide
/-- The boundary 216 (V-FA2). -/
theorem meets_FrameFramesThePayload :
    let s := running .frame (payload 168 fits216)
    Completing s .frame ∧ s.regs.paylen = 168#8 ∧ stuffedLength (payBits s.regs) = 216 := by decide +kernel
theorem meets_FrameRejectsOtherLengths :
    Completing (running .frame (payload 167 ascii)) .frame ∧ (running .frame (payload 167 ascii)).regs.paylen ≠ 168#8 := by
  decide
/-- 217 and 220 (V-FA3, V-FA6). -/
theorem meets_FrameReportsOverflow :
    let a := running .frame (payload 168 over217)
    let b := running .frame (payload 168 over220)
    Completing a .frame ∧ a.regs.paylen = 168#8 ∧ stuffedLength (payBits a.regs) = 217
      ∧ Completing b .frame ∧ b.regs.paylen = 168#8 ∧ stuffedLength (payBits b.regs) = 220 := by decide +kernel
theorem meets_PackframeEncodesTheReport :
    Completing (running .packframe example1) .packframe ∧ OperandsInRange (running .packframe example1).regs := by decide
theorem meets_CrcComputesOverThePayload :
    ∀ n ∈ [0#8, 168#8], Completing (running .crc (payload n ascii)) .crc ∧ n.toNat % 8 = 0 ∧ n.toNat ≤ 168 := by decide
theorem meets_CrcRejectsOtherLengths :
    ∀ n ∈ [7#8, 169#8, 176#8],
      Completing (running .crc (payload n ascii)) .crc ∧ (n.toNat % 8 ≠ 0 ∨ 168 < n.toNat) := by decide
theorem meets_NoCommandWritesTheOperands :
    ∃ t, exec .packframe (running .packframe example1) = .next t := ⟨_, rfl⟩
theorem reset_inv : Inv State.reset :=
  ⟨by decide, by decide, by decide, by decide, trivial⟩
theorem running_inv : Inv (running .frame (payload 168 fits216)) :=
  ⟨by decide, by decide, by decide, by decide, trivial⟩
/-- The engine's turn while a reset waits in the queue. -/
def resetWaits (s : State) : State := { s with host := [.reset], hostTurns := 0 }
theorem resetWaits_inv : Inv (resetWaits (running .frame (payload 168 fits216))) :=
  ⟨by decide, by decide, by decide, by decide, trivial⟩
/-- A completing FRAME, the queue empty and a reset waiting: FRM, STUFFLEN and CRCVAL change. -/
theorem meets_ResultsChangeOnlyOnSuccess :
    (∃ s t, Inv s ∧ step s = .next t ∧ ¬ ResetTurn s ∧ s.host = [] ∧ t.regs.frm ≠ s.regs.frm
        ∧ t.regs.stufflen ≠ s.regs.stufflen ∧ t.regs.crcval ≠ s.regs.crcval)
      ∧ (∃ s t, Inv s ∧ step s = .next t ∧ ¬ ResetTurn s ∧ s.host = [.reset] ∧ t.regs.crcval ≠ s.regs.crcval) :=
  ⟨⟨running .frame (payload 168 fits216), nextOf (step (running .frame (payload 168 fits216))), running_inv, rfl,
      by decide, rfl, by decide +kernel, by decide +kernel, by decide +kernel⟩,
    ⟨resetWaits (running .frame (payload 168 fits216)),
      nextOf (step (resetWaits (running .frame (payload 168 fits216)))), resetWaits_inv, rfl,
      by decide, rfl, by decide +kernel⟩⟩
/-- CRC on a bad length, and PACKFRAME failing in its PACK part (V-RG10). -/
theorem meets_ErrorLeavesNoPartialOutput :
    (∃ s t, step s = .next t ∧ s.regs.status.err = none ∧ t.regs.status.err ≠ none ∧ s.pending ≠ .packframe)
      ∧ (∃ s t, step s = .next t ∧ s.regs.status.err = none ∧ t.regs.status.err = some .valueOutOfRangeError
          ∧ s.pending = .packframe) :=
  ⟨⟨running .crc (payload 7 ascii), nextOf (step (running .crc (payload 7 ascii))), rfl, by decide, by decide, by decide⟩,
    ⟨running .packframe (operands 0x40000000 0 0), nextOf (step (running .packframe (operands 0x40000000 0 0))), rfl,
      by decide, by decide, by decide⟩⟩
def finished : State := asked [.write 0 4 6] (idle { resetRegs with status := doneStatus })
theorem meets_DoneFallsOnlyByTheNextCommand :
    ∃ s t, step s = .next t ∧ s.regs.status.busy = false ∧ s.regs.status.done = true ∧ t.regs.status.done = false
      ∧ s.host.head? ≠ some .reset :=
  ⟨finished, nextOf (step finished), rfl, by decide, by decide, by decide, by decide⟩
theorem meets_CompletionIsSuccessOrError :
    ∃ s t, step s = .next t ∧ StatusOk s.regs.status ∧ s.regs.status.busy = true ∧ t.regs.status.busy = false
      ∧ ¬ ResetTurn s ∧ s.host = [.reset] :=
  ⟨resetWaits (running .pack example1), nextOf (step (resetWaits (running .pack example1))), rfl, by decide, by decide,
    by decide +kernel, by decide, rfl⟩
def fatal : State := asked [.write 0 4 5] (idle { resetRegs with status := errStatus .assertionFailure 2 })
theorem meets_AssertionFailureIsFatal :
    ∃ s t, step s = .next t ∧ s.regs.status.busy = false ∧ s.regs.status.err = some .assertionFailure
      ∧ s.host.head? ≠ some .reset :=
  ⟨fatal, nextOf (step fatal), rfl, by decide, by decide, by decide⟩
theorem meets_AssertionFailureIsNeverRaised :
    ∃ s t, step s = .next t ∧ s.regs.status.err ≠ some .assertionFailure :=
  ⟨finished, nextOf (step finished), rfl, by decide⟩
theorem meets_EveryStepKeepsTheInvariant : ∃ s t, Inv s ∧ step s = .next t :=
  ⟨running .frame (payload 168 fits216), nextOf (step (running .frame (payload 168 fits216))), running_inv, rfl⟩
theorem meets_CrcConsumesTheTransmittedOrder : (zeros 168).length = 168 := by simp
/-- The last payload bit, the first and the last CRC bit. -/
theorem meets_TransmittedDataFormula : (zeros 168).length = 168 ∧ 167 < 168 ∧ (168 ≤ 168 ∧ 183 < 184) := by simp
theorem meets_ByteReversalIsAnInvolution : (zeros 16).length % 8 = 0 ∧ 7 < 8 ∧ 8 * 1 + 7 < (zeros 16).length := by simp
/-- Both ends: no data and 216 bits. -/
theorem meets_AssembledFrameRegions : (zeros 0).length ≤ 216 ∧ (zeros 216).length ≤ 216 := by simp
/-- The last payload bit, the last frame bit, and buffers of both lengths. -/
theorem meets_BuffersReadBack :
    (7 < 32 ∧ 32 * (5 : Fin 6).val + 7 = 167) ∧ (31 < 32 ∧ 32 * (7 : Fin 8).val + 31 = 255)
      ∧ (zeros 168).length = 168 ∧ (zeros 256).length = 256 := by simp
theorem meets_FrameBytesInRegisters : (zeros 256).length = 256 ∧ 31 < 32 ∧ 7 < 8 := by simp
theorem meets_ScaledDegreesAreNearest : 0 < 10000000 := by decide
/-- What a host may still do: a dropped write, a read, a poll. -/
def pestering : List HostOp := [.write 0x08 4 1, .read 0x08 4, .poll]
theorem meets_SerialEngineRefinesCompletion :
    ∀ op ∈ [Pending.pack, Pending.frame, Pending.packframe, Pending.crc], ∀ ops ∈ [[], pestering],
      let s := asked ops (serial op example1)
      s.level = .serial ∧ s.regs.status.busy = true ∧ s.pending ≠ .none ∧ s.phase = .start
        ∧ (∀ op ∈ s.host, op.wf = true ∧ op ≠ .reset) := by
  decide
/-- At both levels. -/
theorem meets_EveryAcceptedCommandCompletes :
    ∀ s ∈ [asked pestering { running .packframe example1 with latency := 2 }, asked pestering (serial .packframe example1)],
      s.regs.status.busy = true ∧ s.pending ≠ .none ∧ (s.level = .serial → s.phase = .start)
        ∧ ∀ op ∈ s.host, op.wf = true ∧ op ≠ .reset := by
  decide
theorem meets_InstancesNeverInteract :
    ∃ ms ns, turnAt 1 ms = .next ns ∧ 0 ≠ 1 ∧ ms[1]? = some finished :=
  ⟨[State.reset, finished], [State.reset, nextOf (turn finished)], rfl, by decide, rfl⟩

end Sys2Proof.Tests
end

section
/-! The decoder as one equation on the number of the word (30_encoding.md R90 to R93). -/
namespace Sys2Proof

/-- RSV is 0 exactly on the numbers below 16 (30_encoding.md R90). -/
theorem rsvField_eq_zero_iff (w : Word) : rsvField w = 0#28 ↔ w.toNat < 16 := by
  have hw := w.isLt
  rw [← BitVec.toNat_inj]
  simp only [rsvField, BitVec.extractLsb'_toNat, BitVec.toNat_ofNat, Nat.shiftRight_eq_div_pow]
  omega

theorem decode_eq (w : Word) :
    decode w = if w.toNat < 16 then decodeOpcode w.toNat else .error .reservedBits := by
  simp only [decode, rsvField_eq_zero_iff]
  split
  · rename_i h
    simp [opField, Nat.mod_eq_of_lt h]
  · rfl

/-- A legal word is the number of its command's opcode (30_encoding.md R91). -/
theorem toNat_of_decode_ok {w : Word} {i : Instr} (h : decode w = .ok i) : w.toNat = (opcode i).toNat := by
  rw [decode_eq] at h
  split at h
  · unfold decodeOpcode at h
    split at h <;> cases h <;> assumption
  · cases h

/-- The reserved opcodes are those above 5 (30_encoding.md R92). -/
theorem lt_of_decodeOpcode_error {n : Nat} {e : DecodeError} (h : decodeOpcode n = .error e) : 5 < n := by
  by_contra hn
  interval_cases n <;> cases h

/-- An illegal word is above every opcode (30_encoding.md R92, R93). -/
theorem toNat_of_decode_error {w : Word} {e : DecodeError} (h : decode w = .error e) : 5 < w.toNat := by
  rw [decode_eq] at h
  split at h
  · exact lt_of_decodeOpcode_error h
  · omega

end Sys2Proof
end

section
/-! What one step can do to the block, said once: every statement about all steps is a case analysis on `StepEffect`. -/
namespace Sys2Proof.Machine

/-- The block proper is the same: what differs is the host's side and the counts of free turns. -/
structure SameBlock (s t : State) : Prop where
  regs : t.regs = s.regs
  pending : t.pending = s.pending
  phase : t.phase = s.phase
  work : t.work = s.work
  level : t.level = s.level

/-- What a step can do (20_memory.md R61, R62; 47_commands.md R230, R236, R237; 60_exceptions.md R305; 70_reset_and_hazards.md
R340): nothing to the block, the reset, an operand write, the three outcomes of an issue, an engine step. -/
inductive StepEffect (s : State) : State → Prop
  | unchanged {t : State} (h : SameBlock s t) : StepEffect s t
  | reset (h : ResetTurn s) : StepEffect s (applyReset (takeHost s))
  | operandWrite (off : Nat) (v : Word) (hidle : s.regs.status.busy = false) :
      StepEffect s { takeHost s with regs := writeReg (regAt off) v s.regs }
  | accepted {w : Word} {rest : List HostOp} {op : Pending} {i : Instr} (hhost : s.host = .write 0x00 4 w :: rest)
      (hidle : s.regs.status.busy = false) (herr : s.regs.status.err = none) (hdec : decode w = .ok i)
      (hop : pendingInstr op = some i) : StepEffect s (accept op i (takeHost s))
  | cleared (hidle : s.regs.status.busy = false) : StepEffect s (clearError (takeHost s))
  | illegal {w : Word} {rest : List HostOp} (hhost : s.host = .write 0x00 4 w :: rest)
      (hidle : s.regs.status.busy = false) (herr : s.regs.status.err = none) (hw : 5 < w.toNat) :
      StepEffect s (errorEntry .illcmd (w.setWidth 8) (takeHost s))
  | engine (hbusy : s.regs.status.busy = true) (hlatch : s.pending ≠ .none) :
      StepEffect s (engineStep (pendingBody s.pending) (giveEngine s))

/-- A command issued to the idle block is refused or NOP, is accepted, or is CLRERR (47_commands.md R230, R231, R236). -/
theorem exec_idle_cases {i : Instr} {s t : State} (hidle : s.regs.status.busy = false) (h : exec i s = .next t) :
    t = s ∨ (∃ op, pendingInstr op = some i ∧ s.regs.status.err = none ∧ t = accept op i s) ∨ t = clearError s := by
  have engine (op : Pending) (hop : pendingInstr op = some i) (body : State → BodyEnd)
      (h : engineCommand op i body s = .next t) :
      t = s ∨ (∃ op, pendingInstr op = some i ∧ s.regs.status.err = none ∧ t = accept op i s) ∨ t = clearError s := by
    rcases engineCommand_cases h with ⟨hb, _⟩ | ⟨hb, _⟩ | ⟨_, _, ht⟩ | ⟨_, herr, ht⟩
    · simp [hidle] at hb
    · simp [hidle] at hb
    · exact .inl ht
    · exact .inr (.inl ⟨op, hop, herr, ht⟩)
  cases i with
  | nop => cases h; exact .inl rfl
  | pack => exact engine .pack rfl packBody h
  | frame => exact engine .frame rfl frameBody h
  | packframe => exact engine .packframe rfl packframeBody h
  | crc => exact engine .crc rfl crcBody h
  | clrerr =>
    simp only [exec, execClrerr, hidle] at h
    cases h
    exact .inr (.inr rfl)

/-- The effect of a write to CMD in the idle block (47_commands.md R230, 60_exceptions.md R305, R310). -/
theorem issue_effect {s t : State} {w : Word} {rest : List HostOp} (hhost : s.host = .write 0x00 4 w :: rest)
    (hidle : s.regs.status.busy = false) (h : issue w (takeHost s) = .next t) : StepEffect s t := by
  unfold issue at h
  split at h
  next i hdec =>
    rcases exec_idle_cases (by simpa using hidle) h with rfl | ⟨op, hop, herr, rfl⟩ | rfl
    · exact .unchanged ⟨rfl, rfl, rfl, rfl, rfl⟩
    · exact .accepted hhost hidle herr hdec hop
    · exact .cleared hidle
  next e hdec =>
    split at h
    next => cases h; exact .unchanged ⟨rfl, rfl, rfl, rfl, rfl⟩
    next herr =>
      cases h
      exact .illegal hhost hidle (by simpa using herr) (toNat_of_decode_error hdec)

/-- The effect of a write of any register (20_memory.md R62). -/
theorem regWrite_effect {s t : State} {off : Nat} {v : Word} {rest : List HostOp} (hhost : s.host = .write off 4 v :: rest)
    (h : regWrite off v (takeHost s) = .next t) : StepEffect s t := by
  unfold regWrite at h
  split at h
  next => cases h; exact .unchanged ⟨rfl, rfl, rfl, rfl, rfl⟩
  next hidle =>
    have hidle : s.regs.status.busy = false := by simpa using hidle
    split at h
    next hcmd =>
      obtain rfl := (regAt_cmd off).mp hcmd
      exact issue_effect hhost hidle h
    next => cases h; exact .operandWrite off v hidle

/-- The effect of the host's turn (20_memory.md R61 to R64, 70_reset_and_hazards.md R340). -/
theorem hostOp_effect {s t : State} {op : HostOp} {rest : List HostOp} (hhost : s.host = op :: rest)
    (hturn : s.regs.status.busy = false ∨ s.hostTurns ≠ 0) (h : hostOp op (takeHost s) = .next t) : StepEffect s t := by
  cases op with
  | write off width v =>
    obtain ⟨hok, hgo⟩ := checked_next h
    have hwidth : width = 4 := by
      simp only [accessOk, widthOk, Bool.and_eq_true, beq_iff_eq] at hok
      exact hok.1.2
    subst hwidth
    exact regWrite_effect hhost hgo
  | read off width =>
    obtain ⟨_, hgo⟩ := checked_next h
    cases hgo
    exact .unchanged ⟨rfl, rfl, rfl, rfl, rfl⟩
  | poll =>
    simp only [hostOp] at h
    split at h <;> cases h <;> exact .unchanged ⟨rfl, rfl, rfl, rfl, rfl⟩
  | reset =>
    cases h
    exact .reset ⟨by simp [hhost], hturn⟩

/-- Every step that answers a next state has one of the effects. -/
theorem step_effect {s t : State} (h : step s = .next t) : StepEffect s t := by
  rcases step_cases h with ⟨_, _, rfl⟩ | ⟨op, rest, hhost, hturn, hop⟩ | ⟨_, _, _, rfl⟩ | ⟨hbusy, _, i, hi, hexec⟩
  · exact .unchanged ⟨rfl, rfl, rfl, rfl, rfl⟩
  · exact hostOp_effect hhost hturn hop
  · exact .unchanged ⟨rfl, rfl, rfl, rfl, rfl⟩
  · rw [engineTurn_cases hbusy hi hexec]
    exact .engine hbusy (by rintro hp; simp [hp, pendingInstr] at hi)

end Sys2Proof.Machine
end

section
/-! The buffers bit by bit (00_scope.md R9, R10; 20_memory.md R68; 10_state.md R29, R30, R41). -/
namespace Sys2Proof.Machine

theorem valOf_append_singleton (s : Bits) (b : Bool) : valOf (s ++ [b]) = 2 * valOf s + b.toNat := by
  simp [valOf]

/-- The bits of Val(s), the first of s the most significant (00_scope.md R9). -/
theorem testBit_valOf (s : Bits) (i : Nat) (h : i < s.length) : (valOf s).testBit (s.length - 1 - i) = bitAt s i := by
  induction s using List.reverseRecOn with
  | nil => simp at h
  | append_singleton s b ih =>
    rw [valOf_append_singleton, List.length_append, List.length_singleton]
    by_cases hi : i < s.length
    · have hsucc : s.length + 1 - 1 - i = (s.length - 1 - i) + 1 := by omega
      have hhalf : (2 * valOf s + b.toNat) / 2 = valOf s := by
        have := b.toNat_le
        omega
      rw [bitAt_append_left _ _ _ hi, ← ih hi, hsucc, Nat.testBit_succ, hhalf]
    · obtain rfl : i = s.length := by simp at h; omega
      cases b <;> simp [bitAt]

theorem bitAt_take (s : Bits) (n i : Nat) (h : i < n) : bitAt (s.take n) i = bitAt s i := by
  simp [bitAt, h]

theorem bitAt_drop (s : Bits) (n i : Nat) : bitAt (s.drop n) i = bitAt s (n + i) := by
  simp [bitAt, List.getElem?_drop]

/-- Two sequences of one length with the same bits are the same. -/
theorem eq_of_bitAt_eq {s t : Bits} (hl : s.length = t.length) (h : ∀ i, i < t.length → bitAt s i = bitAt t i) :
    s = t := by
  refine List.ext_getElem hl fun i hs ht => ?_
  simpa [bitAt, hs, ht] using h i ht

/-- Bit 31 - k of word j is bit 32j + k (20_memory.md R68). -/
theorem getLsbD_wordAt (s : Bits) (j k : Nat) (hk : k < 32) (hj : 32 * j + 32 ≤ s.length) :
    (wordAt s j).getLsbD (31 - k) = bitAt s (32 * j + k) := by
  have hl : ((s.drop (32 * j)).take 32).length = 32 := by simp; omega
  have hv := testBit_valOf ((s.drop (32 * j)).take 32) k (by omega)
  rw [hl, bitAt_take _ _ _ hk, bitAt_drop] at hv
  rw [wordAt, BitVec.getLsbD_ofNat, ← hv]
  simp
  omega

/-- Bit 7 - k of a byte is bit k of its sequence (00_scope.md R10). -/
theorem getLsbD_byteOf (s : Bits) (k : Nat) (hk : k < 8) (hs : s.length = 8) :
    (byteOf s).getLsbD (7 - k) = bitAt s k := by
  have hv := testBit_valOf s k (by omega)
  rw [hs] at hv
  rw [byteOf, BitVec.getLsbD_ofNat, ← hv]
  simp
  omega

/-- PAYBITS[32j + k] = PAYj[31 - k] (10_state.md R29). -/
theorem bitAt_payBits (r : HostRegs) (j : Fin 6) (k : Nat) (hk : k < 32) (h : 32 * j.val + k < 168) :
    bitAt (payBits r) (32 * j.val + k) = r.pay[j].getLsbD (31 - k) := by
  rw [payBits, bitAt_take _ _ _ h, bitAt_flatMap_wordBits _ _ _ (by simp) hk]
  simp

/-- FRMBITS[32j + k] = FRMj[31 - k] (10_state.md R30). -/
theorem bitAt_frmBits (r : HostRegs) (j : Fin 8) (k : Nat) (hk : k < 32) :
    bitAt (frmBits r) (32 * j.val + k) = r.frm[j].getLsbD (31 - k) := by
  rw [frmBits, bitAt_flatMap_wordBits _ _ _ (by simp) hk]
  simp

theorem frmOf_getElem (g : Bits) (j : Fin 8) : (frmOf g)[j] = wordAt g j := by
  fin_cases j <;> rfl

theorem payOf_getElem (p : Bits) (j : Nat) (h : j < 5) : (payOf p)[j] = wordAt p j := by
  interval_cases j <;> rfl

/-- The six words of a stored payload: five whole ones, and the last byte in PAY5[31:24] (10_state.md R29). -/
theorem getLsbD_payOf (p : Bits) (hp : p.length = 168) (j : Fin 6) (k : Nat) (hk : k < 32) (h : 32 * j.val + k < 168) :
    (payOf p)[j].getLsbD (31 - k) = bitAt p (32 * j.val + k) := by
  by_cases hj : j = 5
  · subst hj
    have hk8 : k < 8 := by simp at h; omega
    have hb := getLsbD_byteOf ((p.drop 160).take 8) k hk8 (by simp [hp])
    rw [bitAt_take _ _ _ hk8, bitAt_drop] at hb
    change ((byteOf ((p.drop 160).take 8)).setWidth 32 <<< 24).getLsbD (31 - k) = bitAt p (160 + k)
    rw [← hb, BitVec.getLsbD_shiftLeft, BitVec.getLsbD_setWidth, show 31 - k - 24 = 7 - k by omega]
    have hlow : 31 - k < 32 ∧ ¬ 31 - k < 24 ∧ 7 - k < 32 := by omega
    simp only [hlow, decide_true, decide_false, Bool.not_false, Bool.true_and]
  · have hlt : j.val < 5 := by omega
    rw [Fin.getElem_fin, payOf_getElem p j hlt, getLsbD_wordAt p j k hk (by omega)]

/-- The word and the place in it of an index into n words (20_memory.md R68). -/
theorem exists_word_index {i n : Nat} (h : i < 32 * n) : ∃ (j : Fin n) (k : Nat), k < 32 ∧ i = 32 * j.val + k :=
  ⟨⟨i / 32, by omega⟩, i % 32, by omega, by simp; omega⟩

/-- A stored payload reads back (10_state.md R29, R41). -/
theorem payBits_payOf (r : HostRegs) (p : Bits) (hp : p.length = 168) : payBits { r with pay := payOf p } = p := by
  refine eq_of_bitAt_eq (by simp [hp]) fun i hi => ?_
  obtain ⟨j, k, hk, rfl⟩ : ∃ (j : Fin 6) (k : Nat), k < 32 ∧ i = 32 * j.val + k := exists_word_index (by omega)
  rw [hp] at hi
  rw [bitAt_payBits _ j k hk hi, getLsbD_payOf p hp j k hk hi]

/-- A stored frame reads back (10_state.md R30, R41). -/
theorem frmBits_frmOf (r : HostRegs) (g : Bits) (hg : g.length = 256) : frmBits { r with frm := frmOf g } = g := by
  refine eq_of_bitAt_eq (by simp [hg]) fun i hi => ?_
  obtain ⟨j, k, hk, rfl⟩ : ∃ (j : Fin 8) (k : Nat), k < 32 ∧ i = 32 * j.val + k := exists_word_index (by omega)
  rw [bitAt_frmBits _ j k hk, frmOf_getElem, getLsbD_wordAt g j k hk (by omega)]

/-- PAY5[23:0] stays 0 when a payload is stored (10_state.md R29). -/
theorem payOf_reserved (p : Bits) : (payOf p)[5] &&& 0x00FFFFFF#32 = 0#32 := by
  have hshift : ∀ b : Byte, b.setWidth 32 <<< 24 &&& 0x00FFFFFF#32 = 0#32 := by decide
  exact hshift (byteOf ((p.drop 160).take 8))

/-- Settles O53, bit by bit. -/
theorem buffersReadBack : Obligations.BuffersReadBack := by
  intro r p g
  refine ⟨payBits_length r, frmBits_length r, bitAt_payBits r, bitAt_frmBits r, fun hp => ?_, fun hg => ?_⟩
  · exact ⟨payBits_payOf r p hp, payOf_reserved p⟩
  · have hfrm := frmBits_frmOf r g hg
    exact ⟨hfrm, congrArg packBytes hfrm⟩

end Sys2Proof.Machine
end

section
/-! The invariant (10_state.md R22, R28, R29, R35; 60_exceptions.md R300 to R304) under the operations that leave the block
idle, and under those that only let the engine go on. -/
namespace Sys2Proof.Machine

theorem serialOk_of_idle {s : State} (h : s.phase = .idle) : SerialOk s := by
  simp [SerialOk, h]

theorem serialOk_of_start {s : State} (h : s.phase = .start) : SerialOk s := by
  simp [SerialOk, h]

/-- An idle block meets the invariant when its registers do. -/
theorem inv_of_idle {s : State} (hbusy : s.regs.status.busy = false) (hlatch : s.pending = .none)
    (hphase : s.phase = .idle) (hstatus : StatusOk s.regs.status) (hregs : RegistersOk s.regs)
    (herr : ErrorOk s.regs.status) : Inv s where
  status := hstatus
  latch := ⟨by simp [hlatch, hbusy], by simp [hlatch, hphase], fun _ => .inl hphase⟩
  registers := hregs
  error := herr
  serial := serialOk_of_idle hphase

/-- The invariant speaks of the block only, not of the host's side. -/
theorem Inv.of_sameBlock {s t : State} (hs : Inv s) (h : SameBlock s t) : Inv t := by
  obtain ⟨hregs, hpending, hphase, hwork, hlevel⟩ := h
  cases s
  cases t
  subst hregs hpending hphase hwork hlevel
  exact ⟨hs.status, hs.latch, hs.registers, hs.error, hs.serial⟩

theorem sameBlock_takeHost (s : State) : SameBlock s (takeHost s) := ⟨rfl, rfl, rfl, rfl, rfl⟩

theorem sameBlock_giveEngine (s : State) : SameBlock s (giveEngine s) := ⟨rfl, rfl, rfl, rfl, rfl⟩

/-- With BUSY = 0 the latch is empty and PHASE is IDLE (10_state.md R35, 48_serial_engine.md R260). -/
theorem Inv.idle_latch {s : State} (hs : Inv s) (hidle : s.regs.status.busy = false) :
    s.pending = .none ∧ s.phase = .idle := by
  obtain ⟨hbusy, hphase, _⟩ := hs.latch
  have hp := hbusy.mpr hidle
  exact ⟨hp, hphase.mpr hp⟩

/-! ### The host's side -/

theorem inv_of_regs_reset {s : State} (hregs : s.regs = resetRegs) (hlatch : s.pending = .none)
    (hphase : s.phase = .idle) : Inv s :=
  inv_of_idle (by rw [hregs]; rfl) hlatch hphase (by rw [hregs]; decide) (by rw [hregs]; decide) (by rw [hregs]; decide)

/-- Settles O39: the reset state is idle with the reset registers. -/
theorem resetMeetsTheInvariant : Obligations.ResetMeetsTheInvariant := inv_of_regs_reset rfl rfl rfl

/-- An operand write keeps PAY5[23:0] = 0 and STUFFLEN (20_memory.md R62, R65). -/
theorem registersOk_writeReg {r : HostRegs} (g : Reg) (v : Word) (h : RegistersOk r) : RegistersOk (writeReg g v r) := by
  obtain ⟨hpay, hlen⟩ := h
  refine ⟨?_, by simpa using hlen⟩
  cases g with
  | pay j =>
    by_cases hj : j = 5
    · subst hj
      simp only [writeReg, if_true]
      change (r.pay.set 5 (v &&& pay5Mask))[5] &&& 0x00FFFFFF#32 = 0#32
      rw [Vector.getElem_set_self, BitVec.and_assoc]
      exact BitVec.and_zero
    · have hne : j.val ≠ 5 := fun h => hj (Fin.ext h)
      simpa [writeReg, Vector.getElem_set_ne, hne] using hpay
  | _ => exact hpay

theorem Inv.writeReg {s : State} (hs : Inv s) (hidle : s.regs.status.busy = false) (g : Reg) (v : Word) :
    Inv { s with regs := writeReg g v s.regs } := by
  obtain ⟨hlatch, hphase⟩ := hs.idle_latch hidle
  exact inv_of_idle (by simpa using hidle) hlatch hphase (by simpa using hs.status) (registersOk_writeReg g v hs.registers)
    (by simpa using hs.error)

/-- CLRERR leaves the status or makes it the one without an error (47_commands.md R236). -/
theorem clearStatus_cases (st : Status) :
    clearStatus st = st ∨ clearStatus st = { st with err := none, errinfo := 0#8 } := by
  unfold clearStatus
  split
  · exact .inl rfl
  · split
    · exact .inr rfl
    · exact .inl rfl

theorem Inv.clearError {s : State} (hs : Inv s) (hidle : s.regs.status.busy = false) : Inv (clearError s) := by
  obtain ⟨hlatch, hphase⟩ := hs.idle_latch hidle
  obtain ⟨hstatus, herror⟩ : StatusOk (clearStatus s.regs.status) ∧ ErrorOk (clearStatus s.regs.status) := by
    rcases clearStatus_cases s.regs.status with h | h
    · rw [h]; exact ⟨hs.status, hs.error⟩
    · rw [h]; simp [StatusOk, ErrorOk, hidle]
  exact inv_of_idle (by simpa using hidle) hlatch hphase hstatus hs.registers herror

/-- Acceptance sets BUSY and fills the latch (47_commands.md R230). -/
theorem Inv.accept {s : State} (hs : Inv s) (herr : s.regs.status.err = none) {op : Pending} (hop : op ≠ .none)
    (i : Instr) : Inv (accept op i s) where
  status := by
    obtain ⟨_, _, hinfo⟩ := hs.status
    simpa [StatusOk, herr] using hinfo herr
  latch := by simp [LatchOk, hop]
  registers := hs.registers
  error := by simp [ErrorOk, herr]
  serial := serialOk_of_start rfl

/-! ### How a command ends -/

/-- An error entry with a legal code and information (60_exceptions.md R308). -/
theorem inv_errorEntry {s : State} {k : ErrorKind} {info : Byte} (hregs : RegistersOk s.regs)
    (herr : ErrorOk (errorStatus k info)) : Inv (errorEntry k info s) :=
  inv_of_idle rfl rfl rfl (by simp [StatusOk]) hregs herr

theorem errorOk_illcmd (info : Byte) : ErrorOk (errorStatus .illcmd info) := by simp [ErrorOk]

theorem errorOk_payloadFormat {info : Byte} (h : info ≠ 168#8) : ErrorOk (errorStatus .payloadFormatError info) := by
  simpa [ErrorOk] using h

theorem errorOk_valueOutOfRange {info : Byte} (h : 1 ≤ info.toNat ∧ info.toNat ≤ 7) :
    ErrorOk (errorStatus .valueOutOfRangeError info) := by simpa [ErrorOk] using h

theorem errorOk_frameOverflow {n : Nat} (h : 217 ≤ n ∧ n ≤ 220) :
    ErrorOk (errorStatus .frameOverflowError (BitVec.ofNat 8 n)) := by
  have hn : n % 256 = n := Nat.mod_eq_of_lt (by omega)
  simpa [ErrorOk, hn] using h

/-- The registers of a running command (10_state.md R22, R28, R29): while BUSY = 1 no
error is pending and ERRINFO is 0. -/
structure RunningRegs (r : HostRegs) : Prop where
  registers : RegistersOk r
  err : r.status.err = none
  errinfo : r.status.errinfo = 0#8

theorem Inv.runningRegs {s : State} (hs : Inv s) (hbusy : s.regs.status.busy = true) : RunningRegs s.regs := by
  obtain ⟨hrun, _, hinfo⟩ := hs.status
  obtain ⟨_, herr⟩ := hrun hbusy
  exact ⟨hs.registers, herr, hinfo herr⟩

theorem RunningRegs.setPayload {r : HostRegs} (h : RunningRegs r) (p : Bits) (n : BitVec 8) :
    RunningRegs { r with pay := payOf p, paylen := n } :=
  ⟨⟨payOf_reserved p, h.registers.2⟩, h.err, h.errinfo⟩

/-- STUFFLEN takes a stuffed length that fits (10_state.md R28). -/
theorem RunningRegs.setFrame {r : HostRegs} (h : RunningRegs r) (f : Vector Word 8) (c : Half) {n : Nat}
    (hn : 184 ≤ n ∧ n ≤ 216) : RunningRegs { r with frm := f, crcval := c, stufflen := BitVec.ofNat 8 n } := by
  have hmod : n % 256 = n := Nat.mod_eq_of_lt (by omega)
  exact ⟨⟨h.registers.1, .inr (by simpa [hmod] using hn)⟩, h.err, h.errinfo⟩

theorem RunningRegs.setCrcval {r : HostRegs} (h : RunningRegs r) (c : Half) : RunningRegs { r with crcval := c } :=
  ⟨h.registers, h.err, h.errinfo⟩

theorem inv_finish {s : State} (h : RunningRegs s.regs) : Inv (finish s) :=
  inv_of_idle rfl rfl rfl (by simp [StatusOk, h.err, h.errinfo]) h.registers (by simp [ErrorOk, h.err])

/-- A body of a command that ends as the invariant wants it. -/
def BodyOk (e : BodyEnd) : Prop :=
  match e with
  | .done t => RunningRegs t.regs
  | .raised kept k info => RegistersOk kept.regs ∧ ErrorOk (errorStatus k info)

theorem inv_complete {e : BodyEnd} (h : BodyOk e) : Inv (complete e) := by
  cases e with
  | done t => exact inv_finish h
  | raised kept k info => exact inv_errorEntry h.1 h.2

/-- The mask of RangeBad has three bits (40_field_packing.md R131). -/
theorem rangeBad_le (m la lo : Int) : (rangeBad m la lo).toNat ≤ 7 := by
  simp only [rangeBad]
  cases mmsiBad m <;> cases latBad la <;> cases lonBad lo <;> decide

/-- PACK's body is the range error with a legal mask, or a payload stored (47_commands.md R232). -/
theorem packBody_cases (s : State) :
    (∃ info, (1 ≤ info.toNat ∧ info.toNat ≤ 7) ∧ packBody s = .raised s .valueOutOfRangeError info)
      ∨ ∃ p, packBody s = .done { s with regs := { s.regs with pay := payOf p, paylen := 168#8 } } := by
  rw [packBody_eq]
  split
  next hbad =>
    have hne : (rangeBad (mmsiVal s.regs) (latVal s.regs) (lonVal s.regs)).toNat ≠ 0 :=
      fun h => hbad (BitVec.eq_of_toNat_eq h)
    exact .inl ⟨_, ⟨Nat.one_le_iff_ne_zero.mpr hne, rangeBad_le _ _ _⟩, rfl⟩
  next => exact .inr ⟨_, rfl⟩

theorem packBody_ok {s : State} (h : RunningRegs s.regs) : BodyOk (packBody s) := by
  rcases packBody_cases s with ⟨info, hinfo, hpack⟩ | ⟨p, hpack⟩ <;> rw [hpack]
  · exact ⟨h.registers, errorOk_valueOutOfRange hinfo⟩
  · exact h.setPayload p _

theorem frameBody_ok {s : State} (h : RunningRegs s.regs) : BodyOk (frameBody s) := by
  have hbounds := stuffedLength_bounds (payBits s.regs) (payBits_length s.regs)
  rw [frameBody_eq]
  split
  next hlen => exact ⟨h.registers, errorOk_payloadFormat hlen⟩
  next =>
    split
    next hover => exact ⟨h.registers, errorOk_frameOverflow ⟨hover, hbounds.2⟩⟩
    next hfits => exact h.setFrame _ _ ⟨hbounds.1, by omega⟩

theorem packframeBody_ok {s : State} (h : RunningRegs s.regs) : BodyOk (packframeBody s) := by
  have hpack := packBody_ok h
  unfold packframeBody
  split
  next heq => rwa [heq] at hpack
  next packed heq =>
    rw [heq] at hpack
    exact frameBody_ok hpack

/-- A length the CRC command refuses is not 168 (47_commands.md R235). -/
theorem ne_of_crcLengthBad {n : BitVec 8} (h : crcLengthBad n.toNat = true) : n ≠ 168#8 := by
  rintro rfl
  revert h
  decide

theorem crcBody_ok {s : State} (h : RunningRegs s.regs) : BodyOk (crcBody s) := by
  unfold crcBody
  split
  next hbad => exact ⟨h.registers, errorOk_payloadFormat (ne_of_crcLengthBad hbad)⟩
  next => exact h.setCrcval _

theorem pendingBody_ok {s : State} (h : RunningRegs s.regs) : BodyOk (pendingBody s.pending s) := by
  cases s.pending with
  | none => exact h
  | pack => exact packBody_ok h
  | frame => exact frameBody_ok h
  | packframe => exact packframeBody_ok h
  | crc => exact crcBody_ok h

end Sys2Proof.Machine
end

section
/-! The invariant under one engine step of Level S, phase by phase (48_serial_engine.md R261 to R270, R273). -/
namespace Sys2Proof.Machine

/-! ### The stuffing engine and the line -/

/-- After Emit LAST is the bit just stored (48_serial_engine.md R262, R273). -/
theorem lineOk_emit (b isdata : Bool) (w : Work) : LineOk (emit b isdata w) := by
  intro _ hle
  have hlt : w.outidx < 256 := by simp at hle; omega
  simp [bitAt, hlt]

/-- A data bit is counted, and with the fifth one in a row a zero is owed (43_bit_stuffing.md R181, 48_serial_engine.md
R262). -/
theorem stuffCount_emit {w w' : Work} {d : Nat} (b : Bool) (h : StuffCount w d) (hpend : w.pend = false)
    (hrun' : w'.run = w.run) (hpend' : w'.pend = w.pend) (hslen' : w'.slen = w.slen + 1) :
    StuffCount (emit b true w') (d + 1) := by
  obtain ⟨hrun, _, hlen, hzeros⟩ := h
  simp only [hpend, Bool.toNat_false] at hzeros
  cases b with
  | false => simp [StuffCount, emitRun, hpend', hpend, hslen']; omega
  | true =>
    by_cases hfour : w.run = 4
    · simp [StuffCount, emitRun, hrun', hfour, hslen']; omega
    · simp [StuffCount, emitRun, hrun', hfour, hpend', hpend, hslen']; omega

/-- The owed zero is sent (48_serial_engine.md R263). -/
theorem stuffCount_pendWork {w : Work} {d : Nat} (h : StuffCount w d) (hpend : w.pend = true) :
    StuffCount (pendWork w) d := by
  obtain ⟨hrun, hzero, hlen, hzeros⟩ := h
  have hrun0 := hzero hpend
  simp only [hpend, Bool.toNat_true] at hzeros
  simp [StuffCount, pendWork, hrun0]
  omega

/-- The stuffed length of a whole frame (43_bit_stuffing.md R182). -/
theorem StuffCount.slen_bounds {w : Work} (h : StuffCount w 184) (hpend : w.pend = false) :
    184 ≤ w.slen ∧ w.slen ≤ 220 := by
  obtain ⟨_, _, hlen, hzeros⟩ := h
  simp only [hpend, Bool.toNat_false] at hzeros
  omega

/-! ### The frame of a step that goes on -/

/-- A serial engine that goes on in a phase other than IDLE keeps the invariant when the new phase does. -/
theorem Inv.goOn {s : State} (hs : Inv s) (hlevel : s.level = .serial) (hbusy : s.regs.status.busy = true)
    {p : Phase} {w : Work} (hp : p ≠ .idle) (hserial : SerialOk { s with phase := p, work := w }) :
    Inv { s with phase := p, work := w } where
  status := hs.status
  latch := by
    obtain ⟨hlatch, _, _⟩ := hs.latch
    have hnone : s.pending ≠ .none := fun h => by simp [hlatch.mp h] at hbusy
    exact ⟨hlatch, by simp [hp, hnone], by simp [hlevel]⟩
  registers := hs.registers
  error := hs.error
  serial := hserial

/-- A step within a phase. -/
theorem Inv.stay {s : State} (hs : Inv s) (hlevel : s.level = .serial) (hbusy : s.regs.status.busy = true)
    {p : Phase} {w : Work} (hphase : s.phase = p) (hp : p ≠ .idle)
    (hserial : SerialOk { s with phase := p, work := w }) : Inv { s with work := w } := by
  subst hphase
  exact hs.goOn hlevel hbusy hp hserial

/-- A counted step: the next bit of the region, or the next region (48_serial_engine.md R264 to R268). -/
theorem Inv.countTo {s : State} (hs : Inv s) (hlevel : s.level = .serial) (hbusy : s.regs.status.busy = true)
    {p : Phase} (hphase : s.phase = p) (hp : p ≠ .idle) {limit : Nat} {after : Phase} {w : Work} (hafter : after ≠ .idle)
    (hcnt : w.cnt = s.work.cnt)
    (hlast : s.work.cnt + 1 = limit → SerialOk { s with phase := after, work := { w with cnt := 0 } })
    (hnext : s.work.cnt + 1 ≠ limit → SerialOk { s with phase := p, work := { w with cnt := s.work.cnt + 1 } }) :
    Inv (countTo limit after w s) := by
  unfold Machine.countTo
  rw [hcnt]
  split
  next h => exact hs.goOn hlevel hbusy hafter (hlast h)
  next h => exact hs.stay hlevel hbusy hphase hp (hnext h)

/-! ### START -/

theorem inv_startFraming {s : State} (hs : Inv s) (hlevel : s.level = .serial) (hbusy : s.regs.status.busy = true)
    (hframing : Framing s) : Inv (startFraming s) := by
  unfold startFraming
  split
  next hlen =>
    refine inv_errorEntry hs.registers (errorOk_payloadFormat fun h => hlen ?_)
    rw [paylenVal, h]
    rfl
  next =>
    refine hs.goOn hlevel hbusy (by decide) ⟨hframing, rfl, rfl, rfl, rfl, by simp [startWork], rfl, ?_⟩
    intro hpos _
    simp [startWork] at hpos

theorem inv_finishCrc {s : State} (h : RunningRegs s.regs) : Inv (finishCrc s) := inv_finish (h.setCrcval _)

theorem le_of_not_crcLengthBad {n : Nat} (h : ¬ crcLengthBad n = true) : n ≤ 168 := by
  have hgood : n % 8 = 0 ∧ n ≤ 168 := by simpa [crcLengthBad] using h
  exact hgood.2

theorem inv_startCrc {s : State} (hs : Inv s) (hlevel : s.level = .serial) (hbusy : s.regs.status.busy = true)
    (hcrc : s.pending = .crc) : Inv (startCrc s) := by
  unfold startCrc
  split
  next hbad => exact inv_errorEntry hs.registers (errorOk_payloadFormat (ne_of_crcLengthBad hbad))
  next hgood =>
    split
    next => exact inv_finishCrc (hs.runningRegs hbusy)
    next hpos =>
      exact hs.goOn hlevel hbusy (by decide)
        (.inr ⟨hcrc, rfl, Nat.pos_of_ne_zero hpos, le_of_not_crcLengthBad hgood⟩)

/-- The PACK part of a running PACKFRAME keeps the invariant (48_serial_engine.md R261). -/
theorem Inv.setPayload {s : State} (hs : Inv s) (hphase : s.phase = .start) (p : Bits) (n : BitVec 8) :
    Inv { s with regs := { s.regs with pay := payOf p, paylen := n } } :=
  ⟨hs.status, hs.latch, ⟨payOf_reserved p, hs.registers.2⟩, hs.error, serialOk_of_start hphase⟩

theorem inv_startStep {s : State} (hs : Inv s) (hlevel : s.level = .serial) (hbusy : s.regs.status.busy = true)
    (hphase : s.phase = .start) : Inv (startStep s) := by
  unfold startStep
  split
  next => exact hs
  next => exact inv_complete (packBody_ok (hs.runningRegs hbusy))
  next hpending =>
    rcases packBody_cases s with ⟨info, hinfo, hpack⟩ | ⟨p, hpack⟩ <;> simp only [hpack]
    · exact inv_errorEntry hs.registers (errorOk_valueOutOfRange hinfo)
    · exact inv_startFraming (hs.setPayload hphase p _) hlevel hbusy (.inr hpending)
  next hpending => exact inv_startFraming hs hlevel hbusy (.inl hpending)
  next hpending => exact inv_startCrc hs hlevel hbusy hpending

/-! ### The phases that emit -/

section
variable {s : State} (hs : Inv s) (hlevel : s.level = .serial) (hbusy : s.regs.status.busy = true)
include hs hlevel hbusy

theorem inv_preStep (hphase : s.phase = .pre) : Inv (preStep s) := by
  have hserial := hs.serial
  simp only [SerialOk, hphase] at hserial
  obtain ⟨hframing, hpend, hrun, hslen, hcrc, hcnt, hidx, _⟩ := hserial
  refine hs.countTo hlevel hbusy hphase (by decide) (by decide) (emit_cnt _ _ _)
    (fun (hlast : s.work.cnt + 1 = 24) => ?_) (fun (hnext : s.work.cnt + 1 ≠ 24) => ?_)
  · exact ⟨hframing, hpend, hrun, hslen, hcrc, by simp, by simp; omega, lineOk_emit _ _ _⟩
  · exact ⟨hframing, hpend, hrun, hslen, hcrc, Nat.lt_of_le_of_ne hcnt hnext, by simp; omega, lineOk_emit _ _ _⟩

theorem inv_sflagStep (hphase : s.phase = .sflag) : Inv (sflagStep s) := by
  have hserial := hs.serial
  simp only [SerialOk, hphase] at hserial
  obtain ⟨hframing, hpend, hrun, hslen, hcrc, hcnt, hidx, _⟩ := hserial
  refine hs.countTo hlevel hbusy hphase (by decide) (by decide) (emit_cnt _ _ _)
    (fun (hlast : s.work.cnt + 1 = 8) => ?_) (fun (hnext : s.work.cnt + 1 ≠ 8) => ?_)
  · refine .inl ⟨hframing, by simp, by simp; omega, ?_, lineOk_emit _ _ _⟩
    simp [StuffCount, hpend, hrun, hslen]
  · exact ⟨hframing, hpend, hrun, hslen, hcrc, Nat.lt_of_le_of_ne hcnt hnext, by simp; omega, lineOk_emit _ _ _⟩

theorem inv_dataStep (hphase : s.phase = .data) (hpend : s.work.pend = false) (hcrc : s.pending ≠ .crc) :
    Inv (dataStep s) := by
  have hserial := hs.serial
  simp only [SerialOk, hphase, hcrc, false_and, or_false] at hserial
  obtain ⟨hframing, hcnt, hidx, hstuff, _⟩ := hserial
  have hstuff' := stuffCount_emit (w' := { s.work with crc := crcBit s.work.crc (dataBit s), slen := s.work.slen + 1 })
    (dataBit s) hstuff hpend rfl rfl rfl
  refine hs.countTo hlevel hbusy hphase (by decide) (by decide) (emit_cnt _ _ _)
    (fun (hlast : s.work.cnt + 1 = 168) => ?_) (fun (hnext : s.work.cnt + 1 ≠ 168) => ?_)
  · rw [hlast] at hstuff'
    exact ⟨hframing, by simp, by simp; omega, hstuff', lineOk_emit _ _ _⟩
  · exact .inl ⟨hframing, Nat.lt_of_le_of_ne hcnt hnext, by simp; omega, hstuff', lineOk_emit _ _ _⟩

theorem inv_crcDataStep (hphase : s.phase = .data) (hcrc : s.pending = .crc) : Inv (crcDataStep s) := by
  have hserial := hs.serial
  simp only [SerialOk, hphase, Framing, hcrc] at hserial
  simp only [reduceCtorEq, or_self, false_and, false_or] at hserial
  obtain ⟨_, hpend, hcnt, hlen⟩ := hserial
  unfold crcDataStep
  split
  next => exact inv_finishCrc (hs.runningRegs hbusy)
  next hnext =>
    exact hs.stay hlevel hbusy hphase (by decide) (.inr ⟨hcrc, hpend, Nat.lt_of_le_of_ne hcnt hnext, hlen⟩)

theorem inv_fcsStep (hphase : s.phase = .fcs) (hpend : s.work.pend = false) : Inv (fcsStep s) := by
  have hserial := hs.serial
  simp only [SerialOk, hphase] at hserial
  obtain ⟨hframing, hcnt, hidx, hstuff, _⟩ := hserial
  have hstuff' := stuffCount_emit (w' := { s.work with slen := s.work.slen + 1 })
    (!s.work.crc.getLsbD s.work.cnt) hstuff hpend rfl rfl rfl
  refine hs.countTo hlevel hbusy hphase (by decide) (by decide) (emit_cnt _ _ _)
    (fun (hlast : s.work.cnt + 1 = 16) => ?_) (fun (hnext : s.work.cnt + 1 ≠ 16) => ?_)
  · rw [show 168 + s.work.cnt + 1 = 184 by omega] at hstuff'
    exact ⟨hframing, by simp, by simp; omega, hstuff', by simp, lineOk_emit _ _ _⟩
  · exact ⟨hframing, Nat.lt_of_le_of_ne hcnt hnext, by simp; omega, hstuff', lineOk_emit _ _ _⟩

theorem inv_eflagStep (hphase : s.phase = .eflag) (hpend : s.work.pend = false) : Inv (eflagStep s) := by
  have hserial := hs.serial
  simp only [SerialOk, hphase] at hserial
  obtain ⟨hframing, hcnt, hidx, hstuff, _, _⟩ := hserial
  have hstuff' : StuffCount (emit (bitAt flag s.work.cnt) false s.work) 184 := hstuff
  refine hs.countTo hlevel hbusy hphase (by decide) (by decide) (emit_cnt _ _ _)
    (fun (hlast : s.work.cnt + 1 = 8) => ?_) (fun (hnext : s.work.cnt + 1 ≠ 8) => ?_)
  · exact ⟨hframing, hpend, by simp, by simp; omega, .inr (by simp; omega), hstuff', lineOk_emit _ _ _⟩
  · exact ⟨hframing, Nat.lt_of_le_of_ne hcnt hnext, by simp; omega, hstuff', by simp [hpend], lineOk_emit _ _ _⟩

theorem inv_padStep (hphase : s.phase = .pad) : Inv (padStep s) := by
  have hserial := hs.serial
  simp only [SerialOk, hphase] at hserial
  obtain ⟨hframing, hpend, hcnt, hlow, hhigh, hstuff, _⟩ := hserial
  have hlen := hstuff.slen_bounds hpend
  unfold padStep
  split
  next hover =>
    have hover : 256 < s.work.outidx := hover
    exact inv_errorEntry hs.registers (errorOk_frameOverflow ⟨by omega, hlen.2⟩)
  next hroom =>
    have hroom : ¬ 256 < s.work.outidx := hroom
    split
    next hfull =>
      have hfull : s.work.outidx = 256 := hfull
      exact inv_finish ((hs.runningRegs hbusy).setFrame _ _ ⟨hlen.1, by omega⟩)
    next hmore =>
      have hmore : s.work.outidx ≠ 256 := hmore
      exact hs.stay hlevel hbusy hphase (by decide)
        ⟨hframing, hpend, hcnt, by simp; omega, .inl (by simp; omega), hstuff, lineOk_emit _ _ _⟩

/-- The owed zero is sent in the phase it is owed in, one of those that follow a data bit (48_serial_engine.md R263). -/
theorem inv_pendStep (hidle : s.phase ≠ .idle) (hstart : s.phase ≠ .start) (hpend : s.work.pend = true) :
    Inv { s with work := pendWork s.work } := by
  have hserial := hs.serial
  have hstuff {d : Nat} (h : StuffCount s.work d) := stuffCount_pendWork h hpend
  cases hphase : s.phase
  case idle => exact absurd hphase hidle
  case start => exact absurd hphase hstart
  all_goals simp only [SerialOk, hphase, hpend] at hserial
  case data =>
    obtain ⟨hframing, hcnt, hidx, hcount, _⟩ | ⟨_, howed, _⟩ := hserial
    · exact hs.goOn hlevel hbusy (by decide)
        (.inl ⟨hframing, hcnt, by simp [pendWork]; omega, hstuff hcount, lineOk_emit _ _ _⟩)
    · cases howed
  case fcs =>
    obtain ⟨hframing, hcnt, hidx, hcount, _⟩ := hserial
    exact hs.goOn hlevel hbusy (by decide)
      ⟨hframing, hcnt, by simp [pendWork]; omega, hstuff hcount, lineOk_emit _ _ _⟩
  case eflag =>
    obtain ⟨hframing, hcnt, hidx, hcount, hzero, _⟩ := hserial
    exact hs.goOn hlevel hbusy (by decide)
      ⟨hframing, hcnt, by simp [pendWork]; omega, hstuff hcount, by simp [pendWork], lineOk_emit _ _ _⟩
  all_goals
    obtain ⟨_, howed, _⟩ := hserial
    cases howed

theorem inv_phaseStep (hpend : s.phase ≠ .idle → s.phase ≠ .start → s.work.pend = false) : Inv (phaseStep s) := by
  unfold phaseStep
  split
  case h_1 => exact hs
  case h_2 hphase => exact inv_startStep hs hlevel hbusy hphase
  case h_3 hphase => exact inv_preStep hs hlevel hbusy hphase
  case h_4 hphase => exact inv_sflagStep hs hlevel hbusy hphase
  case h_5 hphase =>
    have hpend := hpend (by simp [hphase]) (by simp [hphase])
    split
    next hcrc => exact inv_crcDataStep hs hlevel hbusy hphase hcrc
    next hcrc => exact inv_dataStep hs hlevel hbusy hphase hpend hcrc
  case h_6 hphase => exact inv_fcsStep hs hlevel hbusy hphase (hpend (by simp [hphase]) (by simp [hphase]))
  case h_7 hphase => exact inv_eflagStep hs hlevel hbusy hphase (hpend (by simp [hphase]) (by simp [hphase]))
  case h_8 hphase => exact inv_padStep hs hlevel hbusy hphase

theorem inv_serialStep : Inv (serialStep s) := by
  unfold serialStep
  split
  next h => exact inv_pendStep hs hlevel hbusy h.1 h.2.1 h.2.2
  next h => exact inv_phaseStep hs hlevel hbusy fun hidle hstart => by simpa [hidle, hstart] using h

end

/-! ### The step -/

/-- An engine step of either level (47_commands.md R237, 48_serial_engine.md). -/
theorem inv_engineStep {s : State} (hs : Inv s) (hbusy : s.regs.status.busy = true) :
    Inv (engineStep (pendingBody s.pending) s) := by
  rcases engineStep_cases (pendingBody s.pending) s with ⟨_, _, h⟩ | ⟨_, _, h⟩ | ⟨hlevel, h⟩ <;> rw [h]
  · exact inv_complete (pendingBody_ok (hs.runningRegs hbusy))
  · exact hs.of_sameBlock ⟨rfl, rfl, rfl, rfl, rfl⟩
  · exact inv_serialStep hs hlevel hbusy

/-- Settles O40, effect by effect. -/
theorem everyStepKeepsTheInvariant : Obligations.EveryStepKeepsTheInvariant := by
  intro s t hs hstep
  have htake := hs.of_sameBlock (sameBlock_takeHost s)
  cases step_effect hstep with
  | unchanged h => exact hs.of_sameBlock h
  | reset _ => exact inv_of_regs_reset rfl rfl rfl
  | operandWrite off v hidle => exact htake.writeReg hidle (regAt off) v
  | accepted _ _ herr _ hop => exact htake.accept herr (by rintro rfl; simp [pendingInstr] at hop) _
  | cleared hidle => exact htake.clearError hidle
  | illegal _ _ _ _ => exact inv_errorEntry hs.registers (errorOk_illcmd _)
  | engine hbusy _ => exact inv_engineStep (hs.of_sameBlock (sameBlock_giveEngine s)) hbusy

end Sys2Proof.Machine
end

section
/-! Which steps touch the result registers (10_state.md R27, R28, R30). -/
namespace Sys2Proof.Machine

/-- FRM, STUFFLEN and CRCVAL are kept. -/
structure ResultsKept (r r' : HostRegs) : Prop where
  frm : r'.frm = r.frm
  stufflen : r'.stufflen = r.stufflen
  crcval : r'.crcval = r.crcval

theorem ResultsKept.setStatus {r r' : HostRegs} (h : ResultsKept r r') (st : Status) :
    ResultsKept r { r' with status := st } := ⟨h.frm, h.stufflen, h.crcval⟩

/-- The end of a command without an error (47_commands.md R237). -/
abbrev Success (t : State) : Prop := t.regs.status.busy = false ∧ t.regs.status.done = true

/-- What a step of the command `op` from registers `r` may do to the results: keep them, write all of them at the success
of a framing command, or write CRCVAL at the success of CRC. -/
inductive ResultsEffect (op : Pending) (r : HostRegs) (t : State) : Prop
  | kept (h : ResultsKept r t.regs)
  | framed (hop : op = .frame ∨ op = .packframe) (h : Success t)
  | checked (hop : op = .crc) (h : Success t) (hfrm : t.regs.frm = r.frm) (hlen : t.regs.stufflen = r.stufflen)

/-- Framing on a payload already packed, or on the one in the buffer, whichever command asked for it. -/
theorem frameBody_results {op : Pending} (hop : op = .frame ∨ op = .packframe) {r : HostRegs} {s : State}
    (hs : ResultsKept r s.regs) : ResultsEffect op r (complete (frameBody s)) := by
  rw [frameBody_eq]
  split
  · exact .kept (hs.setStatus _)
  · split
    · exact .kept (hs.setStatus _)
    · exact .framed hop ⟨rfl, rfl⟩

/-- Level F: the results at the completion of a command (47_commands.md R237). -/
theorem complete_results (op : Pending) (s : State) : ResultsEffect op s.regs (complete (pendingBody op s)) := by
  cases op with
  | none => exact .kept ⟨rfl, rfl, rfl⟩
  | pack =>
    rcases packBody_cases s with ⟨info, _, h⟩ | ⟨p, h⟩ <;> simp only [pendingBody, h] <;> exact .kept ⟨rfl, rfl, rfl⟩
  | frame => exact frameBody_results (.inl rfl) ⟨rfl, rfl, rfl⟩
  | packframe =>
    rcases packBody_cases s with ⟨info, _, h⟩ | ⟨p, h⟩ <;> simp only [pendingBody, packframeBody, h]
    · exact .kept ⟨rfl, rfl, rfl⟩
    · exact frameBody_results (.inr rfl) ⟨rfl, rfl, rfl⟩
  | crc =>
    simp only [pendingBody, crcBody]
    split
    · exact .kept ⟨rfl, rfl, rfl⟩
    · exact .checked rfl ⟨rfl, rfl⟩ rfl rfl

@[simp] theorem countTo_regs (limit : Nat) (after : Phase) (w : Work) (s : State) :
    (countTo limit after w s).regs = s.regs := by
  unfold countTo
  split <;> rfl

theorem startFraming_results (s : State) : ResultsKept s.regs (startFraming s).regs := by
  unfold startFraming
  split <;> exact ⟨rfl, rfl, rfl⟩

theorem startStep_results (s : State) : ResultsEffect s.pending s.regs (startStep s) := by
  unfold startStep
  split
  case h_1 => exact .kept ⟨rfl, rfl, rfl⟩
  case h_2 hop => rw [hop]; exact complete_results .pack s
  case h_3 =>
    rcases packBody_cases s with ⟨info, _, h⟩ | ⟨p, h⟩ <;> simp only [h]
    · exact .kept ⟨rfl, rfl, rfl⟩
    · obtain ⟨hfrm, hlen, hcrc⟩ := startFraming_results { s with regs := { s.regs with pay := payOf p, paylen := 168#8 } }
      exact .kept ⟨hfrm, hlen, hcrc⟩
  case h_4 => exact .kept (startFraming_results s)
  case h_5 hop =>
    unfold startCrc
    split
    · exact .kept ⟨rfl, rfl, rfl⟩
    · split
      · exact .checked hop ⟨rfl, rfl⟩ rfl rfl
      · exact .kept ⟨rfl, rfl, rfl⟩

/-- PAD is a phase of the framing commands only, and ends in the one write of FRM (48_serial_engine.md R269). -/
theorem padStep_results {s : State} (hframing : Framing s) : ResultsEffect s.pending s.regs (padStep s) := by
  unfold padStep
  split
  · exact .kept ⟨rfl, rfl, rfl⟩
  · split
    · exact .framed hframing ⟨rfl, rfl⟩
    · exact .kept ⟨rfl, rfl, rfl⟩

/-- Level S: the results at one engine step (48_serial_engine.md R264 to R270). -/
theorem serialStep_results {s : State} (hs : Inv s) : ResultsEffect s.pending s.regs (serialStep s) := by
  unfold serialStep
  split
  · exact .kept ⟨rfl, rfl, rfl⟩
  unfold phaseStep
  split
  case h_1 => exact .kept ⟨rfl, rfl, rfl⟩
  case h_2 => exact startStep_results s
  case h_5 =>
    split
    next hop =>
      unfold crcDataStep
      split
      · exact .checked hop ⟨rfl, rfl⟩ rfl rfl
      · exact .kept ⟨rfl, rfl, rfl⟩
    next =>
      rw [dataStep]
      exact .kept (by rw [countTo_regs]; exact ⟨rfl, rfl, rfl⟩)
  case h_8 hphase =>
    have hserial := hs.serial
    simp only [SerialOk, hphase] at hserial
    exact padStep_results hserial.1
  all_goals exact .kept (by simp only [preStep, sflagStep, fcsStep, eflagStep, countTo_regs]; exact ⟨rfl, rfl, rfl⟩)

theorem engineStep_results {s : State} (hs : Inv s) :
    ResultsEffect s.pending s.regs (engineStep (pendingBody s.pending) s) := by
  rcases engineStep_cases (pendingBody s.pending) s with ⟨_, _, h⟩ | ⟨_, _, h⟩ | ⟨_, h⟩ <;> rw [h]
  · exact complete_results s.pending s
  · exact .kept ⟨rfl, rfl, rfl⟩
  · exact serialStep_results hs

/-- The results at any step but the reset. -/
theorem step_results {s t : State} (hs : Inv s) (hstep : step s = .next t) (hreset : ¬ ResetTurn s) :
    ResultsKept s.regs t.regs ∨ (s.regs.status.busy = true ∧ ResultsEffect s.pending s.regs t) := by
  cases step_effect hstep with
  | unchanged h => exact .inl (by rw [h.regs]; exact ⟨rfl, rfl, rfl⟩)
  | reset h => exact absurd h hreset
  | operandWrite off v _ => exact .inl ⟨writeReg_frm _ _ _, writeReg_stufflen _ _ _, writeReg_crcval _ _ _⟩
  | accepted => exact .inl ⟨rfl, rfl, rfl⟩
  | cleared => exact .inl ⟨rfl, rfl, rfl⟩
  | illegal => exact .inl ⟨rfl, rfl, rfl⟩
  | engine hbusy _ => exact .inr ⟨hbusy, engineStep_results (hs.of_sameBlock (sameBlock_giveEngine s))⟩

/-- Settles O33: at every step but the reset the results are kept or a command that writes them succeeds. -/
theorem resultsChangeOnlyOnSuccess : Obligations.ResultsChangeOnlyOnSuccess := by
  intro s t hs hstep hreset
  rcases step_results hs hstep hreset with ⟨hfrm, hlen, hcrc⟩ | ⟨hbusy, heffect⟩
  · exact ⟨fun h => by simp [hfrm, hlen] at h, fun h => absurd hcrc h⟩
  cases heffect with
  | kept h => exact ⟨fun hne => by simp [h.frm, h.stufflen] at hne, fun hne => absurd h.crcval hne⟩
  | framed hop h =>
    obtain ⟨hidle, hdone⟩ := h
    exact ⟨fun _ => ⟨hop, hbusy, hidle, hdone⟩, fun _ => ⟨hop.imp_right .inl, hbusy, hidle, hdone⟩⟩
  | checked hop h hfrm hlen =>
    obtain ⟨hidle, hdone⟩ := h
    exact ⟨fun hne => by simp [hfrm, hlen] at hne, fun _ => ⟨.inr (.inr hop), hbusy, hidle, hdone⟩⟩

end Sys2Proof.Machine
end

section
/-! STATUS under a step from the idle block (10_state.md R22, 47_commands.md R230, 70_reset_and_hazards.md R356). -/
namespace Sys2Proof.Machine

/-- An engine command is neither NOP nor CLRERR: opcodes 1 to 4 (30_encoding.md R91). -/
theorem pendingInstr_engine {op : Pending} {i : Instr} (h : pendingInstr op = some i) : i ≠ .nop ∧ i ≠ .clrerr := by
  cases op <;> cases h <;> decide

theorem pendingInstr_opcode {op : Pending} {i : Instr} (h : pendingInstr op = some i) :
    1 ≤ (opcode i).toNat ∧ (opcode i).toNat ≤ 4 := by
  cases op <;> cases h <;> decide

/-- Settles O10: of the effects of a step only acceptance sets BUSY. -/
theorem busyRisesOnlyByAcceptance : Obligations.BusyRisesOnlyByAcceptance := by
  intro s t hstep hidle hbusy
  cases step_effect hstep with
  | accepted hhost _ herr hdec hop =>
    obtain ⟨hnop, hclrerr⟩ := pendingInstr_engine hop
    exact ⟨_, _, _, hhost, hdec, hnop, hclrerr, herr, hop⟩
  | unchanged h => simp [h.regs, hidle] at hbusy
  | reset => simp [resetRegs, resetStatus] at hbusy
  | operandWrite => simp [hidle] at hbusy
  | cleared => simp [hidle] at hbusy
  | illegal => simp at hbusy
  | engine hrun => simp [hidle] at hrun

/-- Settles O35: of the effects of a step in the idle block only acceptance and ILLCMD clear DONE. -/
theorem doneFallsOnlyByTheNextCommand : Obligations.DoneFallsOnlyByTheNextCommand := by
  intro s t hstep hidle hdone hfell hreset
  cases step_effect hstep with
  | @accepted w rest op i hhost _ herr hdec hop =>
    have hw := pendingInstr_opcode hop
    rw [← toNat_of_decode_ok hdec] at hw
    exact ⟨w, rest, hhost, herr, .inl ⟨hw.1, hw.2, rfl⟩⟩
  | illegal hhost _ herr hw => exact ⟨_, _, hhost, herr, .inr ⟨hw, rfl⟩⟩
  | unchanged h => simp [h.regs, hdone] at hfell
  | reset h => exact absurd h.1 hreset
  | operandWrite => simp [hdone] at hfell
  | cleared => simp [hdone] at hfell
  | engine hrun => simp [hidle] at hrun

end Sys2Proof.Machine
end

section
/-! The state after reset (10_state.md R40), and the engine's turn (47_commands.md R237). -/
namespace Sys2Proof.Machine

/-- Settles O12: a closed state, so by evaluation. -/
theorem resetStateIsAllZero : Obligations.ResetStateIsAllZero := by
  unfold Obligations.ResetStateIsAllZero
  decide

theorem engineTurn_of_pending {s : State} {i : Instr} (h : pendingInstr s.pending = some i) :
    engineTurn s = exec i (giveEngine s) := by
  simp [engineTurn, h]

/-- Settles O5: the engine's turn is exec of the command in the latch. -/
theorem stepRunsThePendingCommand : Obligations.StepRunsThePendingCommand := by
  intro s hnext u
  have hrun (op : Pending) (i : Instr) (hop : pendingInstr op = some i) (h : s.pending = op) : step s = exec i u :=
    (step_engine hnext).trans (engineTurn_of_pending (h ▸ hop))
  exact ⟨hrun .pack .pack rfl, hrun .frame .frame rfl, hrun .packframe .packframe rfl, hrun .crc .crc rfl⟩

end Sys2Proof.Machine
end

section
/-! What the host reads (20_memory.md R61, R64, R65; 10_state.md R20, R22). -/
namespace Sys2Proof.Machine

/-- Bit i of STATUS (10_state.md R22): BUSY, DONE, two reserved bits, ERR, ERRINFO, sixteen reserved bits. -/
def statusBit (st : Status) (i : Nat) : Bool :=
  if i = 0 then st.busy else if i = 1 then st.done else if i < 4 then false
  else if i < 8 then (errField st).getLsbD (i - 4) else if i < 16 then st.errinfo.getLsbD (i - 8) else false

theorem getLsbD_statusWord (st : Status) (i : Nat) : (statusWord st).getLsbD i = statusBit st i := by
  have herr : 4 ≤ i - 4 → (errField st).getLsbD (i - 4) = false := BitVec.getLsbD_of_ge _ _
  have hinfo : 8 ≤ i - 8 → st.errinfo.getLsbD (i - 8) = false := BitVec.getLsbD_of_ge _ _
  simp only [statusWord, BitVec.getLsbD_or, BitVec.getLsbD_shiftLeft, BitVec.getLsbD_setWidth, BitVec.getLsbD_ofBool]
  unfold statusBit
  split_ifs with h0 h1 h4 h8 h16
  all_goals grind

/-- A field of STATUS is known by its bits. -/
theorem statusWord_extract {n : Nat} {st : Status} (k : Nat) {v : BitVec n}
    (h : ∀ i, i < n → statusBit st (k + i) = v.getLsbD i) : (statusWord st).extractLsb' k n = v := by
  refine BitVec.eq_of_getLsbD_eq fun i hi => ?_
  simp [getLsbD_statusWord, hi, h i hi]

/-- Settles O14, field by field from the bits of STATUS. -/
theorem statusWordLayout : Obligations.StatusWordLayout := by
  intro st
  refine ⟨getLsbD_statusWord st 0, getLsbD_statusWord st 1, statusWord_extract 2 fun i hi => ?_, ?_,
    statusWord_extract 8 fun i hi => ?_, statusWord_extract 16 fun i hi => ?_⟩
  · rw [statusBit, if_neg (by omega), if_neg (by omega), if_pos (by omega), BitVec.getLsbD_zero]
  · have herr : (statusWord st).extractLsb' 4 4 = errField st := statusWord_extract 4 fun i hi => by
      rw [statusBit, if_neg (by omega), if_neg (by omega), if_neg (by omega), if_pos (by omega), Nat.add_sub_cancel_left]
    rw [herr, errField]
    rcases st.err with _ | k
    · rfl
    · cases k <;> rfl
  · rw [statusBit, if_neg (by omega), if_neg (by omega), if_neg (by omega), if_neg (by omega), if_pos (by omega),
      Nat.add_sub_cancel_left]
  · rw [statusBit, if_neg (by omega), if_neg (by omega), if_neg (by omega), if_neg (by omega), if_neg (by omega),
      BitVec.getLsbD_zero]

/-- No register stands above FRM7 (10_state.md R20, 20_memory.md R64). -/
theorem regAt_of_le {off : Nat} (h : 0x60 ≤ off) : regAt off = .unmapped := by
  unfold regAt
  split
  case h_23 => rfl
  all_goals omega

theorem regRead_of_readsAlways {off : Nat} (h : readsAlways (regAt off) = true) (s : State) :
    regRead off s = regValue (regAt off) s.regs := by
  simp [regRead, h]

theorem regRead_of_idle {s : State} (h : s.regs.status.busy = false) (off : Nat) :
    regRead off s = regValue (regAt off) s.regs := by
  simp [regRead, h]

theorem regAt_frm (j : Fin 8) : regAt (0x40 + 4 * j.val) = .frm j := by
  fin_cases j <;> rfl

/-- Settles O16: a read of CMD, STATUS or an unmapped offset always, and any read when idle, is the register's value. -/
theorem registerReadValues : Obligations.RegisterReadValues := by
  intro s
  refine ⟨regRead_of_readsAlways rfl s, regRead_of_readsAlways rfl s, regRead_of_readsAlways rfl s,
    regRead_of_readsAlways rfl s, fun off hlow _ _ => ?_, fun hidle => ?_⟩
  · have hoff := regAt_of_le hlow
    rw [regRead_of_readsAlways (by rw [hoff]; rfl), hoff]
    rfl
  · have hread := regRead_of_idle hidle
    refine ⟨hread 0x08, hread 0x0C, hread 0x10, hread 0x14, hread 0x18, hread 0x1C, hread 0x20, hread 0x24, hread 0x28,
      hread 0x2C, hread 0x30, hread 0x34, fun j => ?_⟩
    rw [hread, regAt_frm]
    rfl

end Sys2Proof.Machine
end

section
/-! The host's access at the port, one equation per kind of access (20_memory.md R61 to R64, 30_encoding.md R107). -/
namespace Sys2Proof.Machine

theorem accessOk_iff (off width : Nat) : accessOk off width = true ↔ off < 128 ∧ width = 4 ∧ off % 4 = 0 := by
  simp [accessOk, inWindow, widthOk, aligned, and_assoc]

/-- A write the block defines (20_memory.md R62, R63). -/
theorem step_write {s : State} {off : Nat} {v : Word} {rest : List HostOp} (h : HostNext s (.write off 4 v) rest)
    (hoff : off < 128) (halign : off % 4 = 0) : step s = regWrite off v (afterHost s rest) :=
  (step_host h).trans (checked_ok _ ((accessOk_iff off 4).mpr ⟨hoff, rfl, halign⟩))

/-- A read the block defines (20_memory.md R61, R63). -/
theorem step_read {s : State} {off : Nat} {rest : List HostOp} (h : HostNext s (.read off 4) rest)
    (hoff : off < 128) (halign : off % 4 = 0) : step s = .next (hostRead off (afterHost s rest)) :=
  (step_host h).trans (checked_ok _ ((accessOk_iff off 4).mpr ⟨hoff, rfl, halign⟩))

/-- Idle, a write to CMD is an issue (20_memory.md R62). -/
theorem regWrite_cmd {s : State} (hidle : s.regs.status.busy = false) (v : Word) : regWrite 0x00 v s = issue v s := by
  simp [regWrite, hidle, regAt_cmd]

/-- Idle, a write anywhere else is an operand write (20_memory.md R62). -/
theorem regWrite_of_ne_cmd {s : State} (hidle : s.regs.status.busy = false) {off : Nat} (hoff : off ≠ 0) (v : Word) :
    regWrite off v s = .next { s with regs := writeReg (regAt off) v s.regs } := by
  simp [regWrite, hidle, regAt_cmd, hoff]

/-- STATUS reads without using up a free value, BUSY or not (20_memory.md R61). -/
theorem hostRead_status (s : State) : hostRead 0x04 s = { s with rdata := statusWord s.regs.status } := by
  simp [hostRead, regRead, regAt, readsAlways, regValue]

/-- Settles O4: a write to CMD in the idle block is an issue, and a legal word's issue is its exec. -/
theorem stepIssuesTheDecodedCommand : Obligations.StepIssuesTheDecodedCommand := by
  intro s w i rest hnext hidle hdec
  have hissue := regWrite_cmd (s := afterHost s rest) hidle w
  rw [step_write hnext (by decide) (by decide), hissue, issue, hdec]

/-- Settles O15: the read is `hostRead`, which writes the model's own fields only. -/
theorem readChangesNoRegister : Obligations.ReadChangesNoRegister := by
  intro s off rest hnext hoff halign
  exact ⟨_, step_read hnext hoff halign, rfl, rfl, rfl, rfl, rfl, rfl, rfl, rfl⟩

theorem checked_outside {off : Nat} (width : Nat) (go : Result) (h : 128 ≤ off) :
    checked off width go = .fault .outsideWindow := by
  simp [checked, inWindow, h]

theorem checked_width {off width : Nat} (go : Result) (hoff : off < 128) (h : width ≠ 4) :
    checked off width go = .refused .unsupportedWidth := by
  simp [checked, inWindow, hoff, widthOk, h]

theorem checked_misaligned {off : Nat} (go : Result) (hoff : off < 128) (h : off % 4 ≠ 0) :
    checked off 4 go = .refused .misaligned := by
  simp [checked, inWindow, hoff, widthOk, aligned, h]

/-- Settles O20: whatever the access would do, the check before it stops. -/
theorem undefinedAccessStops : Obligations.UndefinedAccessStops := by
  intro s off width v rest hnext
  obtain ⟨go, hstep⟩ : ∃ go, step s = checked off width go := by
    rcases hnext with h | h
    · exact ⟨_, step_host h⟩
    · exact ⟨_, step_host h⟩
  rw [hstep]
  refine ⟨checked_outside width go, checked_width go, ?_⟩
  rintro hoff rfl halign
  exact checked_misaligned go hoff halign

/-- Settles O58: a poll is a read of STATUS, put back in front of the queue while BUSY. -/
theorem pollWaitsForTheEngine : Obligations.PollWaitsForTheEngine := by
  intro s rest hnext polled
  have hread : hostRead 0x04 (afterHost s rest) = polled := hostRead_status _
  rw [step_host hnext]
  refine ⟨fun hbusy => ?_, fun hidle => ?_⟩
  · simp [hostOp, hbusy, hread]
  · simp [hostOp, hidle, hread]

/-- Settles O57: `turnAt k` writes place k of the list only. -/
theorem instancesNeverInteract : Obligations.InstancesNeverInteract := by
  intro k j ms ns hturn hjk
  unfold turnAt at hturn
  split at hturn
  next hnone =>
    cases hturn
    exact ⟨rfl, fun s hs => by simp [hnone] at hs⟩
  next s hs =>
    split at hturn
    next t ht =>
      cases hturn
      obtain ⟨hk, _⟩ := List.getElem?_eq_some_iff.mp hs
      refine ⟨List.getElem?_set_ne hjk.symm, fun u hu => ⟨t, ?_, List.getElem?_set_self hk⟩⟩
      obtain rfl : s = u := Option.some.inj (hs.symm.trans hu)
      exact ht
    next => cases hturn
    next => cases hturn

end Sys2Proof.Machine
end

section
/-! While the engine runs a command the host's accesses leave the block alone (20_memory.md R62, R66, R72). -/
namespace Sys2Proof.Machine

/-- The engine is where it was: the block proper, and the count of its steps before completion. -/
structure SameEngine (s t : State) : Prop extends SameBlock s t where
  latency : t.latency = s.latency

theorem SameEngine.trans {s t u : State} (h : SameEngine s t) (h' : SameEngine t u) : SameEngine s u :=
  ⟨⟨h'.regs.trans h.regs, h'.pending.trans h.pending, h'.phase.trans h.phase, h'.work.trans h.work,
    h'.level.trans h.level⟩, h'.latency.trans h.latency⟩

theorem sameEngine_giveEngine (s : State) : SameEngine s (giveEngine s) := ⟨sameBlock_giveEngine s, rfl⟩

/-- A host's turn while BUSY leaves the engine where it was, uses up one of the host's turns, and takes the operation or,
for a poll, leaves it (20_memory.md R72, 30_encoding.md R107). -/
theorem step_busy_host {s : State} {op : HostOp} {rest : List HostOp} (hnext : HostNext s op rest)
    (hbusy : s.regs.status.busy = true) (hwf : op.wf = true) (hreset : op ≠ .reset) :
    ∃ t, step s = .next t ∧ SameEngine s t ∧ t.hostTurns = s.hostTurns - 1 ∧ (t.host = rest ∨ t.host = s.host) := by
  cases op with
  | write off width v =>
    obtain ⟨hoff, rfl, halign⟩ := (accessOk_iff off width).mp hwf
    have hstep := (step_write hnext hoff halign).trans (regWrite_busy off v (afterHost s rest) hbusy)
    exact ⟨_, hstep, ⟨⟨rfl, rfl, rfl, rfl, rfl⟩, rfl⟩, rfl, .inl rfl⟩
  | read off width =>
    obtain ⟨hoff, rfl, halign⟩ := (accessOk_iff off width).mp hwf
    exact ⟨_, step_read hnext hoff halign, ⟨⟨rfl, rfl, rfl, rfl, rfl⟩, rfl⟩, rfl, .inl rfl⟩
  | poll =>
    exact ⟨_, (pollWaitsForTheEngine s rest hnext).1 hbusy, ⟨⟨rfl, rfl, rfl, rfl, rfl⟩, rfl⟩, rfl, .inr hnext.1.symm⟩
  | reset => exact absurd rfl hreset

/-- Settles O19: the host's turn while BUSY leaves the engine where it was. -/
theorem busyHostAccessChangesNothing : Obligations.BusyHostAccessChangesNothing := by
  intro s op rest hnext hbusy hwf hreset
  obtain ⟨t, hstep, hsame, _⟩ := step_busy_host hnext hbusy hwf hreset
  exact ⟨t, hstep, hsame.regs, hsame.pending, hsame.phase, hsame.work, hsame.level, hsame.latency⟩

end Sys2Proof.Machine
end

section
/-! What the host writes (20_memory.md R62, R65, R71; 10_state.md R20). -/
namespace Sys2Proof.Machine

theorem regAt_pay (j : Fin 6) : regAt (0x20 + 4 * j.val) = .pay j := by
  fin_cases j <;> rfl

/-- Above PAY5 stand the read-only frame buffer and unmapped locations (10_state.md R20, 20_memory.md R62). -/
theorem writeReg_above_pay {off : Nat} (h : 0x38 ≤ off) (v : Word) (r : HostRegs) : writeReg (regAt off) v r = r := by
  by_cases hfrm : off < 0x60
  · interval_cases off <;> rfl
  · rw [regAt_of_le (Nat.le_of_not_lt hfrm)]
    rfl

/-- Settles O17: dropped while BUSY, an issue at CMD, and `writeReg` register by register elsewhere. -/
theorem regWriteRule : Obligations.RegWriteRule := by
  intro s off v rest hnext hoff halign u
  have hstep : step s = regWrite off v u := step_write hnext hoff halign
  refine ⟨fun hbusy => hstep.trans (regWrite_busy off v u hbusy), fun hidle => ?_⟩
  have hidle : u.regs.status.busy = false := hidle
  have hwrite (hne : off ≠ 0) {r : HostRegs} (hr : writeReg (regAt off) v s.regs = r) :
      step s = .next { u with regs := r } := by
    rw [hstep, regWrite_of_ne_cmd hidle hne]
    exact congrArg (fun r => Host.Outcome.next { u with regs := r }) hr
  refine ⟨?_, ?_, ?_, ?_, ?_, ?_, ?_, ?_⟩
  · rintro rfl
    exact hstep.trans (regWrite_cmd hidle v)
  · rintro rfl
    exact hwrite (by decide) rfl
  · rintro rfl
    exact hwrite (by decide) rfl
  · rintro rfl
    exact hwrite (by decide) rfl
  · rintro rfl
    exact hwrite (by decide) (by rw [← BitVec.setWidth_eq_extractLsb' (by decide)]; rfl)
  · rintro j hj rfl
    exact hwrite (by omega) (by simp [regAt_pay, writeReg, hj])
  · rintro rfl
    exact hwrite (by decide) rfl
  · rintro (rfl | rfl | rfl | habove)
    · exact hwrite (by decide) rfl
    · exact hwrite (by decide) rfl
    · exact hwrite (by decide) rfl
    · exact hwrite (by omega) (writeReg_above_pay habove v s.regs)

/-- A write to one register leaves what every other one reads (20_memory.md R71). -/
theorem regValue_writeReg_of_ne {g g' : Reg} (h : g ≠ g') (v : Word) (r : HostRegs) :
    regValue g (writeReg g' v r) = regValue g r := by
  cases g' with
  | pay j =>
    cases g with
    | pay i =>
      have hji : j.val ≠ i.val := fun hv => h (congrArg Reg.pay (Fin.ext hv.symm))
      simp [regValue, writeReg, Vector.getElem_set_ne, hji]
    | _ => rfl
  | mmsi =>
    cases g with
    | mmsi => exact absurd rfl h
    | _ => rfl
  | lat =>
    cases g with
    | lat => exact absurd rfl h
    | _ => rfl
  | lon =>
    cases g with
    | lon => exact absurd rfl h
    | _ => rfl
  | paylen =>
    cases g with
    | paylen => exact absurd rfl h
    | _ => rfl
  | _ => rfl

/-- The reserved bits of PAY5 stay 0 (20_memory.md R65, 10_state.md R29). -/
theorem regValue_writeReg_pay (j : Fin 6) (v : Word) (r : HostRegs) :
    regValue (.pay j) (writeReg (.pay j) v r) = if j = 5 then v &&& pay5Mask else v := by
  by_cases hj : j = 5
  · simp [regValue, writeReg, hj, BitVec.and_assoc]
  · simp [regValue, writeReg, hj]

/-- The reserved bits of PAYLEN read 0 (20_memory.md R65). -/
theorem setWidth_low_byte (v : Word) : (v.setWidth 8).setWidth 32 = v &&& 0x000000FF#32 := by
  refine BitVec.eq_of_toNat_eq ?_
  have hmask : v.toNat &&& 255 = v.toNat % 2 ^ 8 := Nat.and_two_pow_sub_one_eq_mod v.toNat 8
  simp [hmask]
  omega

/-- Settles O18, register by register. -/
theorem readAfterWrite : Obligations.ReadAfterWrite := by
  refine ⟨fun g g' v r h => regValue_writeReg_of_ne h v r, fun g v r => ?_⟩
  cases g with
  | paylen => exact setWidth_low_byte v
  | pay j => exact regValue_writeReg_pay j v r
  | _ => rfl

end Sys2Proof.Machine
end

section
/-! The bytes of the frame and their places in the registers (20_memory.md R68, 46_byte_packing.md R220, R221). -/
namespace Sys2Proof.Machine

theorem bytesOf_length (s : Bits) (h : s.length % 8 = 0) : (bytesOf s).length = s.length / 8 := by
  refine bytes_induction (P := fun s => (bytesOf s).length = s.length / 8) rfl ?_ s h
  intro b0 b1 b2 b3 b4 b5 b6 b7 rest _ ih
  simp [bytesOf, ih]
  omega

/-- Byte b of a sequence is made of its bits 8b to 8b + 7 (00_scope.md R10). -/
theorem getD_bytesOf (s : Bits) (b : Nat) (h : s.length % 8 = 0) (hb : 8 * b < s.length) :
    (bytesOf s).getD b 0#8 = byteOf ((s.drop (8 * b)).take 8) := by
  revert b
  refine bytes_induction (P := fun s => ∀ b, 8 * b < s.length →
    (bytesOf s).getD b 0#8 = byteOf ((s.drop (8 * b)).take 8)) ?_ ?_ s h
  · intro b hb
    simp at hb
  · intro b0 b1 b2 b3 b4 b5 b6 b7 rest _ ih b hb
    cases b with
    | zero => rfl
    | succ k =>
      simp only [List.length_cons] at hb
      exact ih k (by omega)

theorem valOf_append (s t : Bits) : valOf (s ++ t) = valOf s * 2 ^ t.length + valOf t := by
  induction t using List.reverseRecOn with
  | nil => simp [valOf]
  | append_singleton t b ih =>
    rw [← List.append_assoc, valOf_append_singleton, valOf_append_singleton, ih, List.length_append,
      List.length_singleton, Nat.pow_succ]
    ring

theorem valOf_lt (s : Bits) : valOf s < 2 ^ s.length := by
  induction s using List.reverseRecOn with
  | nil => simp [valOf]
  | append_singleton s b ih =>
    have hb := b.toNat_le
    rw [valOf_append_singleton, List.length_append, List.length_singleton, Nat.pow_succ]
    omega

/-- A byte is the number its eight bits write (00_scope.md R10). -/
theorem byteOf_toNat (s : Bits) (h : s.length = 8) : (byteOf s).toNat = valOf s := by
  have hlt := valOf_lt s
  rw [h] at hlt
  simp [byteOf]
  omega

/-- Thirty-two bits are four bytes, the first the most significant (20_memory.md R68). -/
theorem wordAt_toNat (s : Bits) (j : Nat) (h : 32 * j + 32 ≤ s.length) :
    (wordAt s j).toNat = (byteOf ((s.drop (32 * j)).take 8)).toNat * 2 ^ 24
      + (byteOf ((s.drop (32 * j + 8)).take 8)).toNat * 2 ^ 16
      + (byteOf ((s.drop (32 * j + 16)).take 8)).toNat * 2 ^ 8 + (byteOf ((s.drop (32 * j + 24)).take 8)).toNat := by
  have hlen (k : Nat) (hk : k ≤ 24) : ((s.drop (32 * j + k)).take 8).length = 8 := by simp; omega
  have h0 := hlen 0 (by omega)
  have h8 := hlen 8 (by omega)
  have h16 := hlen 16 (by omega)
  have h24 := hlen 24 (by omega)
  rw [Nat.add_zero] at h0
  have hsplit : (s.drop (32 * j)).take 32 = (s.drop (32 * j)).take 8 ++ (s.drop (32 * j + 8)).take 8
      ++ (s.drop (32 * j + 16)).take 8 ++ (s.drop (32 * j + 24)).take 8 := by
    simp only [← List.drop_drop, ← List.take_add]
  have hlt := valOf_lt ((s.drop (32 * j)).take 32)
  rw [List.length_take_of_le (by simp; omega)] at hlt
  rw [wordAt, BitVec.toNat_ofNat, Nat.mod_eq_of_lt hlt, hsplit, byteOf_toNat _ h0, byteOf_toNat _ h8, byteOf_toNat _ h16,
    byteOf_toNat _ h24]
  simp only [valOf_append, h8, h16, h24]
  ring

/-- Settles O59: byte b is bits 8b to 8b + 7, and a register is four of them. -/
theorem frameBytesInRegisters : Obligations.FrameBytesInRegisters := by
  intro g hg byte
  have hbyte (b : Nat) (hb : b < 32) : byte b = byteOf ((g.drop (8 * b)).take 8) :=
    getD_bytesOf g b (by simp [hg]) (by omega)
  refine ⟨by simp [packBytes, bytesOf_length, hg], fun b i hb hi => ?_, fun j => ?_⟩
  · rw [hbyte b hb, getLsbD_byteOf _ i hi (by simp; omega), bitAt_take _ _ _ hi, bitAt_drop]
  · have hplace (m : Nat) (hm : m < 4) : byte (4 * j.val + m) = byteOf ((g.drop (32 * j.val + 8 * m)).take 8) := by
      rw [hbyte _ (by omega), Nat.mul_add, ← Nat.mul_assoc]
    rw [frmOf_getElem, wordAt_toNat g j (by omega), hplace 1 (by omega), hplace 2 (by omega), hplace 3 (by omega),
      ← Nat.add_zero (4 * j.val), hplace 0 (by omega)]
    rfl

end Sys2Proof.Machine
end

section
/-! The order in which the payload and its CRC go out (41_crc.md R155, 42_bit_reversal.md R170 to R173). -/
namespace Sys2Proof.Machine

theorem revBytes_append (s t : Bits) (h : s.length % 8 = 0) : revBytes (s ++ t) = revBytes s ++ revBytes t := by
  refine bytes_induction (P := fun s => revBytes (s ++ t) = revBytes s ++ revBytes t) rfl ?_ s h
  intro b0 b1 b2 b3 b4 b5 b6 b7 rest _ ih
  simp [revBytes, ih]

/-- The bit that goes out i-th (42_bit_reversal.md R171, R172). -/
theorem bitAt_revBytes (s : Bits) (i : Nat) (h : s.length % 8 = 0) (hi : i < s.length) :
    bitAt (revBytes s) i = bitAt s (revIndex i) := by
  revert i
  refine bytes_induction (P := fun s => ∀ i, i < s.length → bitAt (revBytes s) i = bitAt s (revIndex i)) ?_ ?_ s h
  · intro i hi
    simp at hi
  · intro b0 b1 b2 b3 b4 b5 b6 b7 rest _ ih i hi
    by_cases hfirst : i < 8
    · interval_cases i <;> rfl
    · obtain ⟨k, rfl⟩ := Nat.exists_eq_add_of_le' (Nat.le_of_not_lt hfirst)
      have hindex : revIndex (k + 8) = revIndex k + 8 := by simp only [revIndex]; omega
      rw [hindex]
      exact ih k (by simpa using hi)

theorem drop_eq_bitAt_cons {s : Bits} {i : Nat} (h : i < s.length) : s.drop i = bitAt s i :: s.drop (i + 1) := by
  rw [List.drop_eq_getElem_cons h]
  simp [bitAt, h]

theorem take_succ_eq_bitAt {s : Bits} {i : Nat} (h : i < s.length) : s.take (i + 1) = s.take i ++ [bitAt s i] := by
  rw [List.take_succ_eq_append_getElem h]
  simp [bitAt, h]

/-! ### The CRC one bit at a time -/

/-- A shift step of a sum: the low bit of one summand is fed in, its other bits move down (41_crc.md R150, R155). -/
theorem crcShift_xor (c w : Half) : crcShift (c ^^^ w) = crcBit c (w.getLsbD 0) ^^^ (w >>> 1) := by
  simp only [crcShift, crcBit, BitVec.getLsbD_xor, BitVec.ushiftRight_xor_distrib]
  cases c.getLsbD 0 <;> cases w.getLsbD 0 <;> simp [BitVec.xor_assoc, BitVec.xor_comm (w >>> 1)]

theorem crcBit_false (c : Half) : crcBit c false = crcShift c := by
  simp [crcBit, crcShift]

/-- Eight shift steps of a sum: the low byte of one summand is fed in, its high byte moves down. -/
theorem crcShift_eight_xor (c w : Half) :
    crcShift (crcShift (crcShift (crcShift (crcShift (crcShift (crcShift (crcShift (c ^^^ w)))))))) =
      crcBit (crcBit (crcBit (crcBit (crcBit (crcBit (crcBit (crcBit c
        (w.getLsbD 0)) (w.getLsbD 1)) (w.getLsbD 2)) (w.getLsbD 3)) (w.getLsbD 4)) (w.getLsbD 5)) (w.getLsbD 6)) (w.getLsbD 7)
        ^^^ (w >>> 8) := by
  simp only [crcShift_xor, BitVec.getLsbD_ushiftRight, ← BitVec.shiftRight_add, Nat.add_zero, Nat.reduceAdd]

/-- Eight serial steps, least significant bit first, are one table step (41_crc.md R155). -/
theorem crcByte_eq_crcBits (crc : Half) (b : Byte) :
    crcByte crc b =
      crcBit (crcBit (crcBit (crcBit (crcBit (crcBit (crcBit (crcBit crc
        (b.getLsbD 0)) (b.getLsbD 1)) (b.getLsbD 2)) (b.getLsbD 3)) (b.getLsbD 4)) (b.getLsbD 5)) (b.getLsbD 6)) (b.getLsbD 7) := by
  have hfed := crcShift_eight_xor crc (b.setWidth 16)
  have htable := crcShift_eight_xor ((crc.setWidth 8 ^^^ b).setWidth 16) ((crc >>> 8) <<< 8)
  have hsum : crc ^^^ b.setWidth 16 = (crc.setWidth 8 ^^^ b).setWidth 16 ^^^ ((crc >>> 8) <<< 8) := by
    refine BitVec.eq_of_getLsbD_eq fun i hi => ?_
    by_cases hlow : i < 8
    · simp [hi, hlow]
    · have hb : b.getLsbD i = false := BitVec.getLsbD_of_ge b i (by omega)
      simp [hi, hlow, hb, show 8 + (i - 8) = i by omega]
  have hhigh : ((crc >>> 8) <<< 8) >>> 8 = crc >>> 8 := by
    refine BitVec.eq_of_getLsbD_eq fun i hi => ?_
    by_cases h : 8 + i < 16
    · simp [h]
    · simp [h, BitVec.getLsbD_of_ge crc (8 + i) (by omega)]
  have hgone : (b.setWidth 16) >>> 8 = 0#16 := by
    refine BitVec.eq_of_getLsbD_eq fun i hi => ?_
    simp
  rw [hsum, htable, hhigh, hgone] at hfed
  simpa [crcBit_false, crcByte, crcTable, BitVec.xor_comm] using hfed

/-- The serial CRC over the bits in the order sent is the table CRC over the bytes (42_bit_reversal.md R173). -/
theorem foldl_crcBit_revBytes (s : Bits) (c : Half) (h : s.length % 8 = 0) :
    (revBytes s).foldl crcBit c = (bytesOf s).foldl crcByte c := by
  revert c
  refine bytes_induction (P := fun s => ∀ c, (revBytes s).foldl crcBit c = (bytesOf s).foldl crcByte c) ?_ ?_ s h
  · intro c
    rfl
  · intro b0 b1 b2 b3 b4 b5 b6 b7 rest _ ih c
    have hbit (k : Nat) (hk : k < 8) := getLsbD_byteOf [b0, b1, b2, b3, b4, b5, b6, b7] k hk rfl
    simp only [revBytes, bytesOf, List.foldl_cons]
    rw [ih, crcByte_eq_crcBits, hbit 7 (by omega), hbit 6 (by omega),
      hbit 5 (by omega), hbit 4 (by omega), hbit 3 (by omega), hbit 2 (by omega), hbit 1 (by omega), hbit 0 (by omega)]
    rfl

/-- The CRC field goes out least significant bit first (42_bit_reversal.md R173, 41_crc.md R154). -/
theorem bitAt_revBytes_crcField (c : Half) (i : Nat) (hi : i < 16) : bitAt (revBytes (crcField c)) i = c.getLsbD i := by
  rw [bitAt_revBytes _ i (by simp) (by simpa using hi), crcField, BitVec.getLsbD]
  by_cases hlow : i < 8
  · have hindex : revIndex i = 7 - i := by simp only [revIndex]; omega
    rw [hindex, bitAt_append_left _ _ _ (by simp; omega), bitAt_bitsOf _ _ _ (by omega),
      show (256 : Nat) = 2 ^ 8 from rfl, Nat.testBit_mod_two_pow, show 8 - 1 - (7 - i) = i by omega]
    simp [hlow]
  · have hindex : revIndex i = 8 + (15 - i) := by simp only [revIndex]; omega
    rw [hindex, bitAt_append_right _ _ _ (by simp), bitsOf_length, Nat.add_sub_cancel_left, bitAt_bitsOf _ _ _ (by omega),
      show (256 : Nat) = 2 ^ 8 from rfl, Nat.testBit_div_two_pow, show 8 - 1 - (15 - i) + 8 = i by omega]

/-- The CRC value is the complement of the register (41_crc.md R152, 48_serial_engine.md R267). -/
theorem getLsbD_crc16X25 (bs : List Byte) {i : Nat} (hi : i < 16) :
    (crc16X25 bs).getLsbD i = !(crcRegister bs).getLsbD i := by
  have hones : Config.crcXorOut = BitVec.allOnes 16 := rfl
  rw [crc16X25, hones, BitVec.xor_allOnes, BitVec.getLsbD_not]
  simp [hi]

/-! ### TxData -/

theorem txData_eq (p : Bits) (h : p.length % 8 = 0) :
    txData p = revBytes p ++ revBytes (crcField (crc16X25 (bytesOf p))) := revBytes_append p _ h

/-- The payload's part of TxData (42_bit_reversal.md R173). -/
theorem bitAt_txData_payload {p : Bits} (hp : p.length = 168) {i : Nat} (hi : i < 168) :
    bitAt (txData p) i = bitAt p (revIndex i) := by
  have hbytes : p.length % 8 = 0 := by simp [hp]
  rw [txData_eq p hbytes, bitAt_append_left _ _ _ (by rw [revBytes_length_of_bytes p hbytes]; omega),
    bitAt_revBytes p i hbytes (by omega)]

/-- The CRC's part of TxData (42_bit_reversal.md R173). -/
theorem bitAt_txData_crc {p : Bits} (hp : p.length = 168) {i : Nat} (hi : i < 16) :
    bitAt (txData p) (168 + i) = (crc16X25 (bytesOf p)).getLsbD i := by
  have hbytes : p.length % 8 = 0 := by simp [hp]
  have hlen : (revBytes p).length = 168 := (revBytes_length_of_bytes p hbytes).trans hp
  rw [txData_eq p hbytes, bitAt_append_right _ _ _ (by omega), hlen, Nat.add_sub_cancel_left,
    bitAt_revBytes_crcField _ i hi]

/-- The shift register fed with the payload's part of TxData (42_bit_reversal.md R173). -/
theorem foldl_crcBit_txData {p : Bits} (hp : p.length = 168) :
    ((txData p).take 168).foldl crcBit Config.crcInit = crcRegister (bytesOf p) := by
  have hbytes : p.length % 8 = 0 := by simp [hp]
  have hlen : (revBytes p).length = 168 := (revBytes_length_of_bytes p hbytes).trans hp
  rw [txData_eq p hbytes, List.take_left' hlen, foldl_crcBit_revBytes p _ hbytes]
  rfl

end Sys2Proof.Machine
end

section
/-! Liveness (47_commands.md R237): what an engine step never writes, and how a command that the engine completes step by
step completes in the machine, whatever the host does in between (20_memory.md R72). -/
namespace Sys2Proof.Machine

/-! ### What no engine step writes (60_exceptions.md R309) -/

/-- The operand registers, the level and the host's side are kept. -/
structure EngineFrame (s t : State) : Prop where
  mmsi : t.regs.mmsi = s.regs.mmsi
  lat : t.regs.lat = s.regs.lat
  lon : t.regs.lon = s.regs.lon
  level : t.level = s.level
  host : t.host = s.host
  rdata : t.rdata = s.rdata

theorem EngineFrame.refl (s : State) : EngineFrame s s := ⟨rfl, rfl, rfl, rfl, rfl, rfl⟩

/-- Storing a payload first changes nothing of what is kept. -/
theorem EngineFrame.of_setPayload {s t : State} {p : Bits} {n : BitVec 8}
    (h : EngineFrame { s with regs := { s.regs with pay := payOf p, paylen := n } } t) : EngineFrame s t :=
  ⟨h.mmsi, h.lat, h.lon, h.level, h.host, h.rdata⟩

theorem frameBody_engineFrame (s : State) : EngineFrame s (complete (frameBody s)) := by
  rw [frameBody_eq]
  split
  · exact ⟨rfl, rfl, rfl, rfl, rfl, rfl⟩
  · split <;> exact ⟨rfl, rfl, rfl, rfl, rfl, rfl⟩

theorem complete_engineFrame (op : Pending) (s : State) : EngineFrame s (complete (pendingBody op s)) := by
  cases op with
  | none => exact ⟨rfl, rfl, rfl, rfl, rfl, rfl⟩
  | pack =>
    rcases packBody_cases s with ⟨info, _, h⟩ | ⟨p, h⟩ <;> simp only [pendingBody, h] <;>
      exact ⟨rfl, rfl, rfl, rfl, rfl, rfl⟩
  | frame => exact frameBody_engineFrame s
  | packframe =>
    rcases packBody_cases s with ⟨info, _, h⟩ | ⟨p, h⟩ <;> simp only [pendingBody, packframeBody, h]
    · exact ⟨rfl, rfl, rfl, rfl, rfl, rfl⟩
    · exact .of_setPayload (frameBody_engineFrame _)
  | crc =>
    simp only [pendingBody, crcBody]
    split <;> exact ⟨rfl, rfl, rfl, rfl, rfl, rfl⟩

theorem startFraming_engineFrame (s : State) : EngineFrame s (startFraming s) := by
  unfold startFraming
  split <;> exact ⟨rfl, rfl, rfl, rfl, rfl, rfl⟩

theorem startStep_engineFrame (s : State) : EngineFrame s (startStep s) := by
  unfold startStep
  split
  case h_1 => exact .refl s
  case h_2 => exact complete_engineFrame .pack s
  case h_3 =>
    rcases packBody_cases s with ⟨info, _, h⟩ | ⟨p, h⟩ <;> simp only [h]
    · exact ⟨rfl, rfl, rfl, rfl, rfl, rfl⟩
    · exact .of_setPayload (startFraming_engineFrame _)
  case h_4 => exact startFraming_engineFrame s
  case h_5 =>
    unfold startCrc
    split
    · exact ⟨rfl, rfl, rfl, rfl, rfl, rfl⟩
    · split <;> exact ⟨rfl, rfl, rfl, rfl, rfl, rfl⟩

theorem countTo_engineFrame (limit : Nat) (after : Phase) (w : Work) (s : State) :
    EngineFrame s (countTo limit after w s) := by
  unfold countTo
  split <;> exact ⟨rfl, rfl, rfl, rfl, rfl, rfl⟩

theorem serialStep_engineFrame (s : State) : EngineFrame s (serialStep s) := by
  unfold serialStep
  split
  · exact ⟨rfl, rfl, rfl, rfl, rfl, rfl⟩
  unfold phaseStep
  split
  case h_1 => exact .refl s
  case h_2 => exact startStep_engineFrame s
  case h_5 =>
    split
    · unfold crcDataStep
      split <;> exact ⟨rfl, rfl, rfl, rfl, rfl, rfl⟩
    · exact countTo_engineFrame _ _ _ s
  case h_8 =>
    unfold padStep
    split
    · exact ⟨rfl, rfl, rfl, rfl, rfl, rfl⟩
    · split <;> exact ⟨rfl, rfl, rfl, rfl, rfl, rfl⟩
  all_goals exact countTo_engineFrame _ _ _ s

theorem engineStep_engineFrame (op : Pending) (s : State) : EngineFrame s (engineStep (pendingBody op) s) := by
  rcases engineStep_cases (pendingBody op) s with ⟨_, _, h⟩ | ⟨_, _, h⟩ | ⟨_, h⟩ <;> rw [h]
  · exact complete_engineFrame op s
  · exact ⟨rfl, rfl, rfl, rfl, rfl, rfl⟩
  · exact serialStep_engineFrame s

/-! ### The result of a command -/

theorem frameBody_regs_congr {s t : State} (h : s.regs = t.regs) :
    (complete (frameBody s)).regs = (complete (frameBody t)).regs := by
  simp only [frameBody_eq, h]
  split
  · simp [complete, h]
  · split <;> simp [complete, h]

/-- The registers a command leaves depend on the registers at acceptance only (47_commands.md R237). -/
theorem pendingBody_regs_congr (op : Pending) {s t : State} (h : s.regs = t.regs) :
    (complete (pendingBody op s)).regs = (complete (pendingBody op t)).regs := by
  cases op with
  | none => simp [pendingBody, complete, h]
  | pack =>
    simp only [pendingBody, packBody_eq, h]
    split <;> simp [complete, h]
  | frame => exact frameBody_regs_congr h
  | packframe =>
    simp only [pendingBody, packframeBody, packBody_eq, h]
    by_cases hbad : rangeBad (mmsiVal t.regs) (latVal t.regs) (lonVal t.regs) ≠ 0#8
    · simp [complete, h, hbad]
    · simp only [if_neg hbad]
      exact frameBody_regs_congr rfl
  | crc =>
    simp only [pendingBody, crcBody_eq, h]
    split <;> simp [complete, h]

/-- The machine is idle with the registers that the body of the command leaves. -/
def Ended (op : Pending) (s t : State) : Prop :=
  t.regs = (complete (pendingBody op s)).regs ∧ t.pending = .none ∧ t.phase = .idle

/-- Complete empties the latch and makes PHASE IDLE (47_commands.md R237, 60_exceptions.md R308). -/
theorem ended_complete (op : Pending) (s : State) : Ended op s (complete (pendingBody op s)) := by
  cases h : pendingBody op s <;> simp [Ended, complete, h]

theorem complete_busy (e : BodyEnd) : (complete e).regs.status.busy = false := by
  cases e <;> rfl

/-! ### Runs -/

theorem runs_succ {s t : State} (h : step s = .next t) (k : Nat) (u : State) : Runs (k + 1) s u ↔ Runs k t u := by
  have hcore : core.step s = .next t := h
  simp only [Runs, Host.Core.run, hcore]

/-- From `s` the machine reaches a state with these registers, no command in the latch and PHASE = IDLE, and until then the
registers meet `keep`; with nothing asked by the host, in at most `n` steps. -/
def Completes (keep : HostRegs → Prop) (final : HostRegs) (n : Nat) (s : State) : Prop :=
  ∃ k t, Runs k s t ∧ t.regs = final ∧ t.pending = .none ∧ t.phase = .idle ∧ (s.host = [] → k ≤ n)
    ∧ ∀ j, j < k → ∃ u, Runs j s u ∧ keep u.regs

theorem completes_of_ended (keep : HostRegs → Prop) (n : Nat) {op : Pending} {f s t : State} (h : Ended op s t)
    (hf : s.regs = f.regs) : Completes keep (complete (pendingBody op f)).regs n t := by
  obtain ⟨hregs, hlatch, hphase⟩ := h
  exact ⟨0, t, rfl, hregs.trans (pendingBody_regs_congr op hf), hlatch, hphase, fun _ => Nat.zero_le n,
    fun j hj => absurd hj (Nat.not_lt_zero j)⟩

theorem Completes.mono {keep keep' : HostRegs → Prop} {final : HostRegs} {n n' : Nat} {s : State}
    (h : Completes keep final n s) (hkeep : ∀ r, keep r → keep' r) (hn : n ≤ n') : Completes keep' final n' s := by
  obtain ⟨k, t, hruns, hregs, hlatch, hphase, hcount, huntil⟩ := h
  refine ⟨k, t, hruns, hregs, hlatch, hphase, fun hhost => (hcount hhost).trans hn, fun j hj => ?_⟩
  obtain ⟨u, hu, hk⟩ := huntil j hj
  exact ⟨u, hu, hkeep _ hk⟩

/-- One step more. -/
theorem completes_of_step {keep : HostRegs → Prop} {final : HostRegs} {m n : Nat} {s t : State} (hstep : step s = .next t)
    (hkeep : keep s.regs) (ht : Completes keep final m t) (hcount : s.host = [] → t.host = [] ∧ m + 1 ≤ n) :
    Completes keep final n s := by
  obtain ⟨k, u, hruns, hregs, hlatch, hphase, hk, huntil⟩ := ht
  refine ⟨k + 1, u, (runs_succ hstep k u).mpr hruns, hregs, hlatch, hphase, fun hhost => ?_, fun j hj => ?_⟩
  · obtain ⟨hhost', hn⟩ := hcount hhost
    exact (Nat.succ_le_succ (hk hhost')).trans hn
  · cases j with
    | zero => exact ⟨s, rfl, hkeep⟩
    | succ j =>
      obtain ⟨v, hv, hkv⟩ := huntil j (Nat.lt_of_succ_lt_succ hj)
      exact ⟨v, (runs_succ hstep j v).mpr hv, hkv⟩

/-- What the host still does: well-formed accesses, no reset. -/
abbrev HostCalm (s : State) : Prop := ∀ op ∈ s.host, op.wf = true ∧ op ≠ .reset

/-- The engine's turn with a command in the latch is an engine step of it (47_commands.md R237). -/
theorem step_engine_pending {s : State} (hnext : EngineNext s) (hlatch : s.pending ≠ .none) :
    step s = .next (engineStep (pendingBody s.pending) (giveEngine s)) := by
  have hbusy : s.regs.status.busy = true := hnext.1
  obtain ⟨i, hi⟩ : ∃ i, pendingInstr s.pending = some i := by
    cases hp : s.pending with
    | none => exact absurd hp hlatch
    | _ => exact ⟨_, rfl⟩
  rw [step_engine hnext, engineTurn_of_pending hi, exec_pending (giveEngine s) i hi, engineCommand]
  simp [hbusy]

/-- Fairness (00_scope.md R7; log 4): the host's turns before the engine's next one are finitely many and leave the engine
where it was, so a command completes when it completes from its next engine step. -/
theorem completes_of_engineStep {keep : HostRegs → Prop} {final : HostRegs} {n : Nat} {s : State}
    (hbusy : s.regs.status.busy = true) (hlatch : s.pending ≠ .none) (hkeep : keep s.regs) (hcalm : HostCalm s)
    (hengine : ∀ u, SameEngine s u → HostCalm u → Completes keep final n (engineStep (pendingBody s.pending) u)) :
    Completes keep final (n + 1) s := by
  induction hturns : s.hostTurns using Nat.strong_induction_on generalizing s with
  | _ turns ih =>
    by_cases hnext : s.host = [] ∨ s.hostTurns = 0
    · have hgive := hengine (giveEngine s) (sameEngine_giveEngine s) hcalm
      have hhost := (engineStep_engineFrame s.pending (giveEngine s)).host
      exact completes_of_step (step_engine_pending ⟨hbusy, hnext⟩ hlatch) hkeep hgive fun h => ⟨hhost.trans h, le_rfl⟩
    · obtain ⟨hne, hturn⟩ := not_or.mp hnext
      obtain ⟨op, rest, hhost⟩ := List.exists_cons_of_ne_nil hne
      obtain ⟨hwf, hreset⟩ := hcalm op (by simp [hhost])
      obtain ⟨t, hstep, hsame, hturns', hhost'⟩ := step_busy_host ⟨hhost, .inr hturn⟩ hbusy hwf hreset
      have hcalm' : HostCalm t := by
        intro o ho
        refine hcalm o ?_
        rcases hhost' with h | h
        · rw [hhost]
          exact List.mem_cons_of_mem op (h ▸ ho)
        · exact h ▸ ho
      have ht : Completes keep final (n + 1) t := by
        refine ih t.hostTurns (by omega) (by rwa [hsame.regs]) (by rwa [hsame.pending]) (by rwa [hsame.regs]) hcalm'
          (fun u hu hcalmu => ?_) rfl
        rw [hsame.pending]
        exact hengine u (hsame.trans hu) hcalmu
      exact completes_of_step hstep hkeep ht fun h => absurd h hne

/-- Level F (47_commands.md R237): the waiting steps are finitely many, and the completing one is the body's end. -/
theorem completes_functional (latency : Nat) {s : State} (hlevel : s.level = .functional) (hlatency : s.latency = latency)
    (hbusy : s.regs.status.busy = true) (hlatch : s.pending ≠ .none) (hcalm : HostCalm s) :
    Completes (· = s.regs) (complete (pendingBody s.pending s)).regs (latency + 1) s := by
  induction latency generalizing s with
  | zero =>
    refine completes_of_engineStep hbusy hlatch rfl hcalm fun u hu _ => ?_
    have hstep : engineStep (pendingBody s.pending) u = complete (pendingBody s.pending u) := by
      simp [engineStep, hu.level, hlevel, hu.latency, hlatency]
    rw [hstep]
    exact completes_of_ended _ _ (ended_complete s.pending u) hu.regs
  | succ k ih =>
    refine completes_of_engineStep hbusy hlatch rfl hcalm fun u hu hcalmu => ?_
    have hstep : engineStep (pendingBody s.pending) u = { u with latency := k } := by
      simp [engineStep, hu.level, hlevel, hu.latency, hlatency]
    have hwait := ih (s := { u with latency := k }) (hu.level.trans hlevel) rfl (by rwa [hu.regs]) (by rwa [hu.pending])
      hcalmu
    have hregs : (complete (pendingBody u.pending { u with latency := k })).regs
        = (complete (pendingBody s.pending s)).regs := by
      rw [hu.pending]
      exact pendingBody_regs_congr s.pending hu.regs
    rw [hstep, ← hregs]
    exact hwait.mono (fun r hr => hr.trans hu.regs) le_rfl

/-- Level S after START: a run of the engine in which each step leaves less to do, or ends the command, completes. -/
theorem completes_of_serialRun {op : Pending} {r : HostRegs} {Run : State → Prop} {left : Work → Nat}
    (hrun : ∀ s, Run s → s.regs = r ∧ s.pending ≠ .none ∧ s.level = .serial)
    (hsame : ∀ s t, Run s → SameEngine s t → Run t)
    (hserial : ∀ s, Run s →
      (Run (serialStep s) ∧ left (serialStep s).work < left s.work) ∨ Ended op s (serialStep s))
    (hbusy : r.status.busy = true) {f : State} (hf : f.regs = r) {s : State} (hs : Run s) (hcalm : HostCalm s) :
    Completes (·.status = r.status) (complete (pendingBody op f)).regs (left s.work + 1) s := by
  induction hleft : left s.work using Nat.strong_induction_on generalizing s with
  | _ n ih =>
    obtain ⟨hregs, hlatch, hlevel⟩ := hrun s hs
    refine completes_of_engineStep (by rwa [hregs]) hlatch (by rw [hregs]) hcalm fun u hu hcalmu => ?_
    have hstep : engineStep (pendingBody s.pending) u = serialStep u := by simp [engineStep, hu.level, hlevel]
    have hhost : (serialStep u).host = u.host := (serialStep_engineFrame u).host
    rw [hstep]
    rcases hserial u (hsame s u hs hu) with ⟨hrun', hless⟩ | hended
    · rw [hu.work, hleft] at hless
      exact (ih _ hless hrun' (by rwa [HostCalm, hhost]) rfl).mono (fun _ h => h) hless
    · exact completes_of_ended _ _ hended (hu.regs.trans (hregs.trans hf.symm))

end Sys2Proof.Machine
end

section
/-! Level S, a framing command: the bits sent so far and the bits still to come make the frame (44_frame_assembly.md R192,
45_nrzi.md R210, 48_serial_engine.md R261 to R269). -/
namespace Sys2Proof.Machine

/-! ### The line -/

/-- The level of the line after the bits e (45_nrzi.md R211). -/
def lineLevel (e : Bits) : Bool := (nrzi e).getLastD false

theorem nrziFrom_append_singleton (last : Bool) (e : Bits) (b : Bool) :
    nrziFrom last (e ++ [b]) = nrziFrom last e ++ [nrziStep ((nrziFrom last e).getLastD last) b] := by
  induction e generalizing last with
  | nil => rfl
  | cons x e ih => simp only [List.cons_append, nrziFrom, ih, List.getLastD_cons]

theorem nrzi_append_singleton (e : Bits) (b : Bool) : nrzi (e ++ [b]) = nrzi e ++ [nrziStep (lineLevel e) b] :=
  nrziFrom_append_singleton false e b

theorem lineLevel_append_singleton (e : Bits) (b : Bool) : lineLevel (e ++ [b]) = nrziStep (lineLevel e) b := by
  rw [lineLevel, nrzi_append_singleton, List.getLastD_concat]

@[simp] theorem nrzi_length (e : Bits) : (nrzi e).length = e.length := nrziFrom_length false e

/-- OUTIDX, LAST and SR after the bits e have been sent (48_serial_engine.md R262). -/
def Sent (w : Work) (e : Bits) : Prop :=
  w.outidx = e.length ∧ w.last = lineLevel e
    ∧ ∀ i, i < e.length → i < 256 → bitAt w.sr.toList i = bitAt (nrzi e) i

theorem sent_emit {w : Work} {e : Bits} (h : Sent w e) (b isdata : Bool) : Sent (emit b isdata w) (e ++ [b]) := by
  obtain ⟨hidx, hlast, hsr⟩ := h
  refine ⟨by simp [hidx], by simp [hlast, lineLevel_append_singleton], fun i hi hframe => ?_⟩
  rw [List.length_append, List.length_singleton] at hi
  rw [nrzi_append_singleton, emit_sr, hidx, hlast]
  by_cases hnew : i = e.length
  · subst hnew
    rw [bitAt_append_right _ _ _ (by simp)]
    simp [bitAt, hframe]
  · have hold : i < e.length := by omega
    rw [bitAt_append_left _ _ _ (by simpa using hold), ← hsr i hold hframe]
    simp [bitAt, hframe, Ne.symm hnew]

/-- A full shift register holds the coded frame (48_serial_engine.md R269). -/
theorem sr_of_sent {w : Work} {e : Bits} (h : Sent w e) (hlen : e.length = 256) : w.sr.toList = nrzi e := by
  obtain ⟨_, _, hsr⟩ := h
  refine eq_of_bitAt_eq (by simp [hlen]) fun i hi => ?_
  rw [nrzi_length] at hi
  exact hsr i hi (by omega)

/-! ### The stuffing engine -/

/-- What the stuffing engine still sends when the data bits d are left: the owed zero, then d stuffed (43_bit_stuffing.md
R181, 48_serial_engine.md R262, R263). -/
def dataToCome (w : Work) (d : Bits) : Bits := (if w.pend then [false] else []) ++ stuffFrom w.run d

theorem dataToCome_emit {w w' : Work} (b : Bool) (d : Bits) (hpend : w.pend = false) (hrun' : w'.run = w.run)
    (hpend' : w'.pend = w.pend) : dataToCome w (b :: d) = b :: dataToCome (emit b true w') d := by
  cases b with
  | false => simp [dataToCome, stuffFrom, stuffStep, emitRun, hpend, hpend']
  | true =>
    by_cases hfour : w.run = 4
    · simp [dataToCome, stuffFrom, stuffStep, emitRun, Config.stuffRun, hpend, hrun', hfour]
    · simp [dataToCome, stuffFrom, stuffStep, emitRun, Config.stuffRun, hpend, hpend', hrun', hfour]

theorem dataToCome_nil {w : Work} (hpend : w.pend = false) : dataToCome w [] = [] := by
  simp [dataToCome, hpend, stuffFrom]

theorem dataToCome_pendWork {w : Work} (d : Bits) (hpend : w.pend = true) :
    dataToCome w d = false :: dataToCome (pendWork w) d := by
  simp [dataToCome, pendWork, hpend]

/-- The frame of a payload up to its end flag: the padding comes after it (44_frame_assembly.md R192). -/
def frameCore (p : Bits) : Bits := preamble ++ flag ++ stuff (txData p) ++ flag

theorem frameCore_length (p : Bits) : (frameCore p).length = 40 + stuffedLength p := by
  simp [frameCore, preamble, flag, stuffedLength]
  omega

theorem assemble_eq (p : Bits) : assemble (stuff (txData p)) = frameCore p ++ zeros (216 - stuffedLength p) := rfl

/-! ### Where the sequencer is -/

/-- The bits e have been sent of the frame of p, and what the phase will still send is the rest (48_serial_engine.md R264 to
R269). -/
def Transmitting (p e : Bits) (s : State) : Prop :=
  match s.phase with
  | .idle => False
  | .start => False
  | .pre => s.work.cnt < 24 ∧ s.work.pend = false ∧ s.work.slen = 0 ∧ s.work.outidx = s.work.cnt
      ∧ s.work.crc = Config.crcInit
      ∧ e ++ (preamble.drop s.work.cnt ++ (flag ++ (dataToCome s.work (txData p) ++ flag))) = frameCore p
  | .sflag => s.work.cnt < 8 ∧ s.work.pend = false ∧ s.work.slen = 0 ∧ s.work.outidx = 24 + s.work.cnt
      ∧ s.work.crc = Config.crcInit
      ∧ e ++ (flag.drop s.work.cnt ++ (dataToCome s.work (txData p) ++ flag)) = frameCore p
  | .data => s.work.cnt < 168 ∧ s.work.outidx = 32 + s.work.slen
      ∧ s.work.crc = ((txData p).take s.work.cnt).foldl crcBit Config.crcInit
      ∧ e ++ (dataToCome s.work ((txData p).drop s.work.cnt) ++ flag) = frameCore p
  | .fcs => s.work.cnt < 16 ∧ s.work.outidx = 32 + s.work.slen ∧ s.work.crc = crcRegister (bytesOf p)
      ∧ e ++ (dataToCome s.work ((txData p).drop (168 + s.work.cnt)) ++ flag) = frameCore p
  | .eflag => s.work.cnt < 8 ∧ s.work.outidx = 32 + s.work.slen + s.work.cnt ∧ s.work.crc = crcRegister (bytesOf p)
      ∧ e ++ (dataToCome s.work [] ++ flag.drop s.work.cnt) = frameCore p
  | .pad => s.work.pend = false ∧ s.work.slen = stuffedLength p ∧ s.work.crc = crcRegister (bytesOf p)
      ∧ ∃ n, e = frameCore p ++ zeros n ∧ (n = 0 ∨ 40 + stuffedLength p + n ≤ 256)

/-- A framing command is running at Level S on the registers r, START done. -/
structure FrameRun (r : HostRegs) (s : State) : Prop where
  regs : s.regs = r
  framing : Framing s
  level : s.level = .serial
  sent : ∃ e, Sent s.work e ∧ Transmitting (payBits r) e s

theorem FrameRun.of_sameEngine {r : HostRegs} {s t : State} (h : FrameRun r s) (hst : SameEngine s t) : FrameRun r t := by
  obtain ⟨⟨hregs, hpending, hphase, hwork, hlevel⟩, _⟩ := hst
  cases s
  cases t
  subst hregs hpending hphase hwork hlevel
  exact ⟨h.regs, h.framing, h.level, h.sent⟩

/-- OUTIDX never passes the longer of the frame and its 256 bits (48_serial_engine.md R269). -/
def lastIndex (r : HostRegs) : Nat := max (40 + stuffedLength (payBits r)) 256

theorem FrameRun.outidx_le {r : HostRegs} {s : State} (h : FrameRun r s) : s.work.outidx ≤ lastIndex r := by
  obtain ⟨e, ⟨hidx, _, _⟩, htx⟩ := h.sent
  have hcore := frameCore_length (payBits r)
  have hprefix {rest : Bits} (heq : e ++ rest = frameCore (payBits r)) : s.work.outidx ≤ lastIndex r := by
    have hlen := congrArg List.length heq
    rw [List.length_append, hcore] at hlen
    simp only [lastIndex]
    omega
  cases hphase : s.phase <;> simp only [Transmitting, hphase] at htx
  case pre => obtain ⟨_, _, _, _, _, heq⟩ := htx; exact hprefix heq
  case sflag => obtain ⟨_, _, _, _, _, heq⟩ := htx; exact hprefix heq
  case data => obtain ⟨_, _, _, heq⟩ := htx; exact hprefix heq
  case fcs => obtain ⟨_, _, _, heq⟩ := htx; exact hprefix heq
  case eflag => obtain ⟨_, _, _, heq⟩ := htx; exact hprefix heq
  case pad =>
    obtain ⟨_, _, _, n, rfl, hn⟩ := htx
    rw [List.length_append, hcore, zeros_length] at hidx
    simp only [lastIndex]
    omega

/-! ### One bit sent -/

/-- The command goes on with one more bit sent. -/
def SentOne (r : HostRegs) (s t : State) : Prop := FrameRun r t ∧ t.work.outidx = s.work.outidx + 1

theorem append_sent {e rest core : Bits} {b : Bool} (h : e ++ (b :: rest) = core) : (e ++ [b]) ++ rest = core := by
  rw [List.append_assoc]
  exact h

section
variable {r : HostRegs} {s : State} (hs : FrameRun r s)
include hs

/-- The rest of the state is as it was. -/
theorem sentOne_goOn {e : Bits} (hsent : Sent s.work e) {p : Phase} {w : Work} {b : Bool} (hw : Sent w (e ++ [b]))
    (htx : Transmitting (payBits r) (e ++ [b]) { s with phase := p, work := w }) :
    SentOne r s { s with phase := p, work := w } := by
  obtain ⟨hidx, _⟩ := hsent
  have hidx' : w.outidx = s.work.outidx + 1 := by simp [hw.1, hidx]
  exact ⟨⟨hs.regs, hs.framing, hs.level, _, hw, htx⟩, hidx'⟩

/-- A step within a phase. -/
theorem sentOne_stay {e : Bits} (hsent : Sent s.work e) {p : Phase} (hphase : s.phase = p) {w : Work} {b : Bool}
    (hw : Sent w (e ++ [b])) (htx : Transmitting (payBits r) (e ++ [b]) { s with phase := p, work := w }) :
    SentOne r s { s with work := w } := by
  subst hphase
  exact sentOne_goOn hs hsent hw htx

/-- A counted step: the next bit of the region, or the next region (48_serial_engine.md R264 to R268). -/
theorem sentOne_countTo {e : Bits} (hsent : Sent s.work e) {p : Phase} (hphase : s.phase = p) {limit : Nat} {after : Phase}
    {w : Work} {b : Bool} (hw : Sent w (e ++ [b])) (hcnt : w.cnt = s.work.cnt)
    (hlast : s.work.cnt + 1 = limit →
      Transmitting (payBits r) (e ++ [b]) { s with phase := after, work := { w with cnt := 0 } })
    (hnext : s.work.cnt + 1 ≠ limit →
      Transmitting (payBits r) (e ++ [b]) { s with phase := p, work := { w with cnt := s.work.cnt + 1 } }) :
    SentOne r s (countTo limit after w s) := by
  unfold countTo
  rw [hcnt]
  split
  next h => exact sentOne_goOn hs hsent hw (hlast h)
  next h => exact sentOne_stay hs hsent hphase hw (hnext h)

theorem sentOne_preStep (hphase : s.phase = .pre) : SentOne r s (preStep s) := by
  obtain ⟨e, hsent, htx⟩ := hs.sent
  simp only [Transmitting, hphase] at htx
  obtain ⟨hcnt, hpend, hslen, hidx, hcrc, heq⟩ := htx
  have hbit : (s.work.cnt % 2 == 0) = bitAt preamble s.work.cnt := by
    generalize s.work.cnt = n at hcnt
    interval_cases n <;> rfl
  rw [drop_eq_bitAt_cons (s := preamble) hcnt] at heq
  have heq' := append_sent heq
  rw [preStep, hbit]
  refine sentOne_countTo hs hsent hphase (sent_emit hsent _ _) (emit_cnt _ _ _)
    (fun (hlast : s.work.cnt + 1 = 24) => ?_) (fun (hnext : s.work.cnt + 1 ≠ 24) => ?_)
  · rw [hlast] at heq'
    exact ⟨by simp, hpend, hslen, by simp; omega, hcrc, heq'⟩
  · exact ⟨Nat.lt_of_le_of_ne hcnt hnext, hpend, hslen, by simp; omega, hcrc, heq'⟩

theorem sentOne_sflagStep (hphase : s.phase = .sflag) : SentOne r s (sflagStep s) := by
  obtain ⟨e, hsent, htx⟩ := hs.sent
  simp only [Transmitting, hphase] at htx
  obtain ⟨hcnt, hpend, hslen, hidx, hcrc, heq⟩ := htx
  rw [drop_eq_bitAt_cons (s := flag) hcnt] at heq
  have heq' := append_sent heq
  refine sentOne_countTo hs hsent hphase (sent_emit hsent _ _) (emit_cnt _ _ _)
    (fun (hlast : s.work.cnt + 1 = 8) => ?_) (fun (hnext : s.work.cnt + 1 ≠ 8) => ?_)
  · rw [hlast] at heq'
    exact ⟨by simp, by simp; omega, by simpa using hcrc, heq'⟩
  · exact ⟨Nat.lt_of_le_of_ne hcnt hnext, hpend, hslen, by simp; omega, hcrc, heq'⟩

theorem sentOne_dataStep (hphase : s.phase = .data) (hpend : s.work.pend = false) : SentOne r s (dataStep s) := by
  obtain ⟨e, hsent, htx⟩ := hs.sent
  simp only [Transmitting, hphase] at htx
  obtain ⟨hcnt, hidx, hcrc, heq⟩ := htx
  have hlen := txData_length (payBits r) (payBits_length r)
  have hbit : dataBit s = bitAt (txData (payBits r)) s.work.cnt := by
    rw [bitAt_txData_payload (payBits_length r) hcnt, dataBit, hs.regs]
  have hcrc' : crcBit s.work.crc (dataBit s) = ((txData (payBits r)).take (s.work.cnt + 1)).foldl crcBit Config.crcInit := by
    rw [take_succ_eq_bitAt (by omega), List.foldl_append, ← hcrc, hbit]
    rfl
  rw [drop_eq_bitAt_cons (by omega), ← hbit,
    dataToCome_emit (w' := { s.work with crc := crcBit s.work.crc (dataBit s), slen := s.work.slen + 1 }) _ _ hpend rfl rfl]
    at heq
  have heq' := append_sent heq
  have hw : Sent { s.work with crc := crcBit s.work.crc (dataBit s), slen := s.work.slen + 1 } e := hsent
  refine sentOne_countTo hs hsent hphase (sent_emit hw _ _) (emit_cnt _ _ _)
    (fun (hlast : s.work.cnt + 1 = 168) => ?_) (fun (hnext : s.work.cnt + 1 ≠ 168) => ?_)
  · rw [hlast] at heq' hcrc'
    exact ⟨by simp, by simp; omega, by simpa using hcrc'.trans (foldl_crcBit_txData (payBits_length r)), heq'⟩
  · exact ⟨Nat.lt_of_le_of_ne hcnt hnext, by simp; omega, by simpa using hcrc', heq'⟩

theorem sentOne_fcsStep (hphase : s.phase = .fcs) (hpend : s.work.pend = false) : SentOne r s (fcsStep s) := by
  obtain ⟨e, hsent, htx⟩ := hs.sent
  simp only [Transmitting, hphase] at htx
  obtain ⟨hcnt, hidx, hcrc, heq⟩ := htx
  have hlen := txData_length (payBits r) (payBits_length r)
  have hbit : (!s.work.crc.getLsbD s.work.cnt) = bitAt (txData (payBits r)) (168 + s.work.cnt) := by
    rw [bitAt_txData_crc (payBits_length r) hcnt, getLsbD_crc16X25 _ hcnt, hcrc]
  rw [drop_eq_bitAt_cons (by omega), ← hbit,
    dataToCome_emit (w' := { s.work with slen := s.work.slen + 1 }) _ _ hpend rfl rfl] at heq
  have heq' := append_sent heq
  have hw : Sent { s.work with slen := s.work.slen + 1 } e := hsent
  refine sentOne_countTo hs hsent hphase (sent_emit hw _ _) (emit_cnt _ _ _)
    (fun (hlast : s.work.cnt + 1 = 16) => ?_) (fun (hnext : s.work.cnt + 1 ≠ 16) => ?_)
  · rw [Nat.add_assoc, hlast, List.drop_of_length_le (by omega)] at heq'
    exact ⟨by simp, by simp; omega, by simpa using hcrc, heq'⟩
  · exact ⟨Nat.lt_of_le_of_ne hcnt hnext, by simp; omega, by simpa using hcrc, heq'⟩

theorem sentOne_eflagStep (hphase : s.phase = .eflag) (hpend : s.work.pend = false) : SentOne r s (eflagStep s) := by
  obtain ⟨e, hsent, htx⟩ := hs.sent
  simp only [Transmitting, hphase] at htx
  obtain ⟨hcnt, hidx, hcrc, heq⟩ := htx
  rw [drop_eq_bitAt_cons (s := flag) hcnt, dataToCome_nil hpend] at heq
  have heq' := append_sent heq
  refine sentOne_countTo hs hsent hphase (sent_emit hsent _ _) (emit_cnt _ _ _)
    (fun (hlast : s.work.cnt + 1 = 8) => ?_) (fun (hnext : s.work.cnt + 1 ≠ 8) => ?_)
  · have hwhole : e ++ [bitAt flag s.work.cnt] = frameCore (payBits r) := by
      rw [hlast] at heq'
      simpa [flag] using heq'
    have hlen := congrArg List.length hwhole
    rw [List.length_append, ← hsent.1, frameCore_length, List.length_singleton] at hlen
    refine ⟨hpend, by simp; omega, by simpa using hcrc, 0, ?_, .inl rfl⟩
    rw [hwhole]
    exact (List.append_nil _).symm
  · refine ⟨Nat.lt_of_le_of_ne hcnt hnext, by simp; omega, by simpa using hcrc, ?_⟩
    rw [dataToCome_nil (by exact hpend)]
    exact heq'

/-- The owed zero is sent in the phase it is owed in (48_serial_engine.md R263). -/
theorem sentOne_pendStep (hpend : s.work.pend = true) : SentOne r s { s with work := pendWork s.work } := by
  obtain ⟨e, hsent, htx⟩ := hs.sent
  have hw : Sent (pendWork s.work) (e ++ [false]) :=
    sent_emit (w := { s.work with pend := false, slen := s.work.slen + 1 }) hsent false false
  cases hphase : s.phase <;> simp only [Transmitting, hphase, hpend, dataToCome_pendWork _ hpend] at htx
  case pre => simp at htx
  case sflag => simp at htx
  case data =>
    obtain ⟨hcnt, hidx, hcrc, heq⟩ := htx
    exact sentOne_goOn hs hsent hw ⟨hcnt, by simp [pendWork]; omega, hcrc, append_sent heq⟩
  case fcs =>
    obtain ⟨hcnt, hidx, hcrc, heq⟩ := htx
    exact sentOne_goOn hs hsent hw ⟨hcnt, by simp [pendWork]; omega, hcrc, append_sent heq⟩
  case eflag =>
    obtain ⟨hcnt, hidx, hcrc, heq⟩ := htx
    exact sentOne_goOn hs hsent hw ⟨hcnt, by simp [pendWork]; omega, hcrc, append_sent heq⟩
  case pad => simp at htx

end

/-! ### The end of the frame -/

/-- PAD fills the frame up, then commits it, or reports that it does not fit (48_serial_engine.md R269). -/
theorem padStep_cases {r : HostRegs} {s : State} (hs : FrameRun r s) (hlen : r.paylen = 168#8) (hphase : s.phase = .pad) :
    SentOne r s (padStep s) ∨ Ended .frame s (padStep s) := by
  obtain ⟨e, hsent, htx⟩ := hs.sent
  obtain rfl := hs.regs
  simp only [Transmitting, hphase] at htx
  obtain ⟨hpend, hslen, hcrc, n, heq, hn⟩ := htx
  have hidx : s.work.outidx = 40 + stuffedLength (payBits s.regs) + n := by
    rw [hsent.1, heq, List.length_append, frameCore_length, zeros_length]
  unfold padStep
  split
  next hover =>
    have hover : 256 < s.work.outidx := hover
    refine .inr ⟨?_, rfl, rfl⟩
    rw [pendingBody, frameBody_eq, if_neg (by simp [hlen]), if_pos (by omega), hslen]
    rfl
  next hroom =>
    have hroom : ¬ 256 < s.work.outidx := hroom
    split
    next hfull =>
      have hfull : s.work.outidx = 256 := hfull
      have hpad : n = 216 - stuffedLength (payBits s.regs) := by omega
      have hsr := sr_of_sent hsent (hsent.1.symm.trans hfull)
      rw [heq, hpad, ← assemble_eq] at hsr
      refine .inr ⟨?_, rfl, rfl⟩
      rw [pendingBody, frameBody_eq, if_neg (by simp [hlen]), if_neg (by omega), hsr, hslen, hcrc]
      rfl
    next hmore =>
      have hmore : s.work.outidx ≠ 256 := hmore
      have hpadded : e ++ [false] = frameCore (payBits s.regs) ++ zeros (n + 1) := by
        rw [heq, List.append_assoc, zeros, zeros, List.replicate_succ']
      exact .inl (sentOne_stay hs hsent hphase (sent_emit hsent _ _)
        ⟨hpend, hslen, hcrc, n + 1, hpadded, .inr (by omega)⟩)

/-- An engine step of a framing command after START (48_serial_engine.md R263 to R269). -/
theorem serialStep_frameRun {r : HostRegs} {s : State} (hs : FrameRun r s) (hlen : r.paylen = 168#8) :
    SentOne r s (serialStep s) ∨ Ended .frame s (serialStep s) := by
  have hcrc : s.pending ≠ .crc := by rcases hs.framing with h | h <;> simp [h]
  obtain ⟨e, _, htx⟩ := hs.sent
  unfold serialStep
  split
  next h => exact .inl (sentOne_pendStep hs h.2.2)
  next h =>
    unfold phaseStep
    cases hphase : s.phase <;> simp only [hcrc, if_false]
    case idle => simp [Transmitting, hphase] at htx
    case start => simp [Transmitting, hphase] at htx
    case pre => exact .inl (sentOne_preStep hs hphase)
    case sflag => exact .inl (sentOne_sflagStep hs hphase)
    case data => exact .inl (sentOne_dataStep hs hphase (by simpa [hphase] using h))
    case fcs => exact .inl (sentOne_fcsStep hs hphase (by simpa [hphase] using h))
    case eflag => exact .inl (sentOne_eflagStep hs hphase (by simpa [hphase] using h))
    case pad => exact padStep_cases hs hlen hphase

/-- A framing command after START completes with the result of FRAME's body (48_serial_engine.md R272). -/
theorem FrameRun.completes {r : HostRegs} {s f : State} (hs : FrameRun r s) (hlen : r.paylen = 168#8)
    (hbusy : r.status.busy = true) (hf : f.regs = r) (hcalm : HostCalm s) :
    Completes (·.status = r.status) (complete (pendingBody .frame f)).regs (lastIndex r - s.work.outidx + 1) s := by
  refine completes_of_serialRun (Run := FrameRun r) (left := fun w => lastIndex r - w.outidx) (fun s hs => ?_)
    (fun s t => FrameRun.of_sameEngine) (fun s hs => ?_) hbusy hf hs hcalm
  · have hlatch : s.pending ≠ .none := by rcases hs.framing with h | h <;> simp [h]
    exact ⟨hs.regs, hlatch, hs.level⟩
  · rcases serialStep_frameRun hs hlen with ⟨hrun, hidx⟩ | hended
    · have hle := hrun.outidx_le
      exact .inl ⟨hrun, by omega⟩
    · exact .inr hended

end Sys2Proof.Machine
end

section
/-! Level S from START (48_serial_engine.md R261, R270, R272): the CRC command, the framing commands, and the completion of
every accepted command (47_commands.md R237). -/
namespace Sys2Proof.Machine

/-! ### The CRC command -/

/-- The payload bits the CRC command covers (47_commands.md R235). -/
abbrev crcBits (r : HostRegs) : Bits := (payBits r).take (paylenVal r)

/-- A legal length of the CRC command: whole bytes within the buffer (47_commands.md R235). -/
abbrev CrcLength (r : HostRegs) : Prop := r.paylen.toNat % 8 = 0 ∧ r.paylen.toNat ≤ 168

theorem crcBits_length {r : HostRegs} (h : CrcLength r) : (crcBits r).length = r.paylen.toNat := by
  have hle := h.2
  simp [hle]

/-- The bit of a DATA step of the CRC command (48_serial_engine.md R266, R270). -/
theorem dataBit_eq_crcBits {s : State} (h : CrcLength s.regs) (hcnt : s.work.cnt < s.regs.paylen.toNat) :
    dataBit s = bitAt (revBytes (crcBits s.regs)) s.work.cnt := by
  have hlen := crcBits_length h
  obtain ⟨hbytes, _⟩ := h
  rw [bitAt_revBytes _ _ (by rwa [hlen]) (by rwa [hlen]), bitAt_take]
  · rfl
  · simp only [revIndex, paylenVal]
    omega

/-- A CRC command is running at Level S on the registers r, START done: the shift register has been fed with the first CNT
bits in the order sent. -/
structure CrcRun (r : HostRegs) (s : State) : Prop where
  regs : s.regs = r
  pending : s.pending = .crc
  level : s.level = .serial
  phase : s.phase = .data
  pend : s.work.pend = false
  cnt : s.work.cnt < r.paylen.toNat
  crc : s.work.crc = ((revBytes (crcBits r)).take s.work.cnt).foldl crcBit Config.crcInit

theorem CrcRun.of_sameEngine {r : HostRegs} {s t : State} (h : CrcRun r s) (hst : SameEngine s t) : CrcRun r t := by
  obtain ⟨⟨hregs, hpending, hphase, hwork, hlevel⟩, _⟩ := hst
  cases s
  cases t
  subst hregs hpending hphase hwork hlevel
  exact ⟨h.regs, h.pending, h.level, h.phase, h.pend, h.cnt, h.crc⟩

/-- The end of the CRC command: the shift register is complete (48_serial_engine.md R270). -/
theorem finishCrc_ended {s t : State} (h : CrcLength s.regs) (hregs : t.regs = s.regs)
    (hcrc : t.work.crc = crcRegister (crcInput s.regs)) : Ended .crc s (finishCrc t) := by
  obtain ⟨hbytes, hle⟩ := h
  refine ⟨?_, rfl, rfl⟩
  rw [pendingBody, crcBody_eq, if_neg (by omega), finishCrc, finish_regs, hcrc, hregs]
  rfl

/-- An engine step of a CRC command after START (48_serial_engine.md R266, R270). -/
theorem serialStep_crcRun {r : HostRegs} {s : State} (hs : CrcRun r s) (hlen : CrcLength r) :
    (CrcRun r (serialStep s) ∧ (serialStep s).work.cnt = s.work.cnt + 1) ∨ Ended .crc s (serialStep s) := by
  obtain ⟨rfl, hpending, hlevel, hphase, hpend, hcnt, hcrc⟩ := hs
  have hcover := crcBits_length hlen
  have hrev := (revBytes_length_of_bytes (crcBits s.regs) (by rw [hcover]; exact hlen.1)).trans hcover
  have hcrc' : crcBit s.work.crc (dataBit s)
      = ((revBytes (crcBits s.regs)).take (s.work.cnt + 1)).foldl crcBit Config.crcInit := by
    rw [take_succ_eq_bitAt (by omega), List.foldl_append, ← hcrc, dataBit_eq_crcBits hlen hcnt]
    rfl
  have hstep : serialStep s = crcDataStep s := by simp [serialStep, hpend, phaseStep, hphase, hpending]
  rw [hstep, crcDataStep]
  split
  next hlast =>
    refine .inr (finishCrc_ended hlen rfl (hcrc'.trans ?_))
    rw [List.take_of_length_le (by rw [hrev]; exact hlast.ge), foldl_crcBit_revBytes _ _ (by rw [hcover]; exact hlen.1)]
    rfl
  next hnext => exact .inl ⟨⟨rfl, hpending, hlevel, hphase, hpend, Nat.lt_of_le_of_ne hcnt hnext, hcrc'⟩, rfl⟩

/-- A CRC command after START completes with the result of CRC's body (48_serial_engine.md R272). -/
theorem CrcRun.completes {r : HostRegs} {s f : State} (hs : CrcRun r s) (hlen : CrcLength r)
    (hbusy : r.status.busy = true) (hf : f.regs = r) (hcalm : HostCalm s) :
    Completes (·.status = r.status) (complete (pendingBody .crc f)).regs (r.paylen.toNat - s.work.cnt + 1) s := by
  refine completes_of_serialRun (Run := CrcRun r) (left := fun w => r.paylen.toNat - w.cnt)
    (fun s hs => ⟨hs.regs, by simp [hs.pending], hs.level⟩) (fun s t => CrcRun.of_sameEngine) (fun s hs => ?_)
    hbusy hf hs hcalm
  rcases serialStep_crcRun hs hlen with ⟨hrun, hcnt⟩ | hended
  · have hlt := hrun.cnt
    exact .inl ⟨hrun, by omega⟩
  · exact .inr hended

/-! ### START -/

section
variable {s : State} (hlevel : s.level = .serial) (hbusy : s.regs.status.busy = true) (hcalm : HostCalm s)
include hlevel hbusy hcalm

/-- START of the CRC command (48_serial_engine.md R261, R270). -/
theorem completes_startCrc (hpending : s.pending = .crc) :
    Completes (·.status = s.regs.status) (complete (pendingBody .crc s)).regs 261 (startCrc s) := by
  unfold startCrc
  split
  next hbad =>
    refine completes_of_ended _ _ (s := s) ⟨?_, rfl, rfl⟩ rfl
    rw [pendingBody, crcBody, if_pos hbad]
    rfl
  next hgood =>
    have hlen : CrcLength s.regs := by simpa [crcLengthBad] using hgood
    split
    next hzero =>
      have hended := finishCrc_ended (t := { s with work := startWork s.work }) hlen rfl
        (by simp [crcInput, hzero, startWork, bytesOf, crcRegister])
      exact completes_of_ended _ _ hended rfl
    next hpos =>
      have hrun : CrcRun s.regs { s with phase := .data, work := startWork s.work } :=
        ⟨rfl, hpending, hlevel, rfl, rfl, Nat.pos_of_ne_zero hpos, rfl⟩
      have hle := hlen.2
      exact (hrun.completes hlen hbusy rfl hcalm).mono (fun _ h => h) (by omega)

/-- START of a framing command, the PACK part done (48_serial_engine.md R261). -/
theorem completes_startFraming (hframing : Framing s) :
    Completes (·.status = s.regs.status) (complete (pendingBody .frame s)).regs 261 (startFraming s) := by
  have hbounds := stuffedLength_bounds (payBits s.regs) (payBits_length s.regs)
  have hiff : paylenVal s.regs ≠ Config.payloadBits ↔ s.regs.paylen ≠ 168#8 :=
    not_congr (BitVec.toNat_inj (x := s.regs.paylen) (y := 168#8))
  unfold startFraming
  split
  next hbad =>
    refine completes_of_ended _ _ (s := s) ⟨?_, rfl, rfl⟩ rfl
    rw [pendingBody, frameBody_eq, if_pos (hiff.mp hbad)]
    rfl
  next hgood =>
    have hrun : FrameRun s.regs { s with phase := .pre, work := startWork s.work } := by
      refine ⟨rfl, hframing, hlevel, [], ⟨rfl, rfl, fun i hi => absurd hi (Nat.not_lt_zero i)⟩, ?_⟩
      refine ⟨by simp [startWork], rfl, rfl, rfl, rfl, ?_⟩
      simp [startWork, dataToCome, frameCore, stuff]
    refine (hrun.completes (not_not.mp (hgood ∘ hiff.mpr)) hbusy rfl hcalm).mono (fun _ h => h) ?_
    simp only [lastIndex]
    omega

/-- START of every engine command (48_serial_engine.md R261). -/
theorem completes_startStep (hlatch : s.pending ≠ .none) :
    Completes (·.status = s.regs.status) (complete (pendingBody s.pending s)).regs 261 (startStep s) := by
  cases hop : s.pending with
  | none => exact absurd hop hlatch
  | pack =>
    simp only [startStep, hop]
    exact completes_of_ended _ _ (ended_complete .pack s) rfl
  | frame =>
    simp only [startStep, hop]
    exact completes_startFraming hlevel hbusy hcalm (.inl hop)
  | packframe =>
    rcases packBody_cases s with ⟨info, _, hpack⟩ | ⟨p, hpack⟩
    · have hstart : startStep s = complete (pendingBody .packframe s) := by
        simp only [startStep, hop, pendingBody, packframeBody, hpack, complete]
      rw [hstart]
      exact completes_of_ended _ _ (ended_complete .packframe s) rfl
    · simp only [startStep, hop, pendingBody, packframeBody]
      simp only [hpack]
      exact completes_startFraming (s := { s with regs := { s.regs with pay := payOf p, paylen := 168#8 } })
        hlevel hbusy hcalm (.inr hop)
  | crc =>
    simp only [startStep, hop]
    exact completes_startCrc hlevel hbusy hcalm hop

/-- Level S (48_serial_engine.md R271, R272): from START every engine command completes with the result of its body, STATUS
unchanged until then; undisturbed, in at most 262 steps. -/
theorem completes_serial (hlatch : s.pending ≠ .none) (hphase : s.phase = .start) :
    Completes (·.status = s.regs.status) (complete (pendingBody s.pending s)).regs 262 s := by
  refine completes_of_engineStep hbusy hlatch rfl hcalm fun u hu hcalmu => ?_
  have hstep : engineStep (pendingBody s.pending) u = startStep u := by
    simp [engineStep, hu.level, hlevel, serialStep, phaseStep, hu.phase, hphase]
  have hstart := completes_startStep (hu.level.trans hlevel) (by rwa [hu.regs]) hcalmu (by rwa [hu.pending])
  rw [hu.pending, hu.regs, pendingBody_regs_congr s.pending hu.regs] at hstart
  rwa [hstep]

end

/-- Settles O56: Level F by the number of waiting steps, Level S by the bits still to send. -/
theorem everyAcceptedCommandCompletes : Obligations.EveryAcceptedCommandCompletes := by
  intro s hbusy hlatch hphase hcalm
  have hcompletes : ∃ n, Completes (fun r => r.status = s.regs.status ∧ (s.level = .functional → r = s.regs))
      (complete (pendingBody s.pending s)).regs n s := by
    cases hlevel : s.level with
    | functional =>
      have h := completes_functional s.latency hlevel rfl hbusy hlatch hcalm
      exact ⟨_, h.mono (fun r hr => ⟨congrArg HostRegs.status hr, fun _ => hr⟩) le_rfl⟩
    | serial =>
      have h := completes_serial hlevel hbusy hcalm hlatch (hphase hlevel)
      exact ⟨_, h.mono (fun r hr => ⟨hr, fun hfun => by cases hfun⟩) le_rfl⟩
  obtain ⟨n, k, t, hruns, hregs, hnone, _, _, huntil⟩ := hcompletes
  exact ⟨k, t, hruns, hregs, hregs ▸ complete_busy _, hnone, huntil⟩

end Sys2Proof.Machine
end

section
/-! The command words: decoding undoes encoding, and the three ranges of words (30_encoding.md R90 to R93). -/
namespace Sys2Proof

theorem decode_encode (i : Instr) : decode (encode i) = .ok i := by
  cases i with
  | nop => exact Laws.Encoding.nop.right.right
  | pack => exact Laws.Encoding.pack.right.right
  | frame => exact Laws.Encoding.frame.right.right
  | packframe => exact Laws.Encoding.packframe.right.right
  | crc => exact Laws.Encoding.crc.right.right
  | clrerr => exact Laws.Encoding.clrerr.right.right

theorem encode_toNat (i : Instr) : (encode i).toNat = (opcode i).toNat :=
  BitVec.toNat_setWidth_of_le (by decide)

/-- Settles O2: a word that decodes to a command is the number of its opcode, and so is the command's encoding. -/
theorem decodeAgreesWithEncode : Obligations.DecodeAgreesWithEncode := by
  intro i w
  constructor
  · intro h
    exact BitVec.eq_of_toNat_eq ((toNat_of_decode_ok h).trans (encode_toNat i).symm)
  · rintro rfl
    exact decode_encode i

theorem exists_decode_ok {w : Word} (h : w.toNat ≤ 5) : ∃ i, decode w = .ok i := by
  cases hdec : decode w with
  | ok i => exact ⟨i, rfl⟩
  | error e => exact absurd h (toNat_of_decode_error hdec).not_ge

theorem decodeOpcode_of_lt {n : Nat} (h : 5 < n) : decodeOpcode n = .error .reservedOpcode := by
  obtain ⟨k, rfl⟩ := Nat.exists_eq_add_of_le' h
  rfl

/-- RSV is 0 and OP reserved (30_encoding.md R92). -/
theorem decode_reservedOpcode {w : Word} (hlow : 5 < w.toNat) (hhigh : w.toNat < 16) :
    decode w = .error .reservedOpcode := by
  rw [decode_eq, if_pos hhigh, decodeOpcode_of_lt hlow]

/-- RSV is not 0 (30_encoding.md R93). -/
theorem decode_reservedBits {w : Word} (h : 16 ≤ w.toNat) : decode w = .error .reservedBits := by
  rw [decode_eq, if_neg h.not_gt]

/-- Settles O3: the three ranges of words cover all of them, and each has its own answer. -/
theorem exactlySixWordsAreLegal : Obligations.ExactlySixWordsAreLegal := by
  intro w
  by_cases hlegal : w.toNat ≤ 5
  · obtain ⟨i, hdec⟩ := exists_decode_ok hlegal
    simp [hdec]
    omega
  · by_cases hrsv : w.toNat < 16
    · simp [decode_reservedOpcode (not_le.mp hlegal) hrsv]
      omega
    · simp [decode_reservedBits (not_lt.mp hrsv)]
      omega

/-- Thirty-two bits read off a word are that word. -/
theorem tableWord_toNat (w : Word) : tableWord 32 w.toNat = some w := by
  simp [tableWord, Nat.mod_eq_of_lt w.isLt, w.isLt]

theorem decodeTableWord_encode (i : Instr) : decodeTableWord 32 (encode i).toNat = some i := by
  simp [decodeTableWord, tableWord_toNat, decode_encode]

/-- Settles O1: the six words are the encodings of the six commands. -/
theorem commandWordsDecode : Obligations.CommandWordsDecode :=
  ⟨decodeTableWord_encode .nop, decodeTableWord_encode .pack, decodeTableWord_encode .frame,
    decodeTableWord_encode .packframe, decodeTableWord_encode .crc, decodeTableWord_encode .clrerr⟩

end Sys2Proof
end

section
/-! The first word of a coded frame (44_frame_assembly.md R192, 45_nrzi.md R210, 46_byte_packing.md R221). -/
namespace Sys2Proof.Machine

/-- The line code of a sequence begins with the line code of its beginning (45_nrzi.md R211). -/
theorem nrziFrom_append (last : Bool) (s t : Bits) :
    nrziFrom last (s ++ t) = nrziFrom last s ++ nrziFrom ((nrziFrom last s).getLastD last) t := by
  induction s generalizing last with
  | nil => rfl
  | cons b s ih => simp only [List.cons_append, nrziFrom, ih, List.getLastD_cons]

theorem wordAt_zero_append {s : Bits} (h : s.length = 32) (t : Bits) : wordAt (s ++ t) 0 = wordAt s 0 := by
  simp [wordAt, h, List.take_of_length_le h.le]

/-- Settles O50: preamble and flag are the first 32 bits whatever the data, so FRM0 is their line code. -/
theorem firstWordOfEveryFrame : Obligations.FirstWordOfEveryFrame := by
  intro t
  have hsplit : assemble t = (preamble ++ flag) ++ (t ++ flag ++ zeros (Config.stuffBudget - t.length)) := by
    simp only [assemble, List.append_assoc]
  calc (frmOf (nrzi (assemble t)))[0]
      = wordAt (nrzi (assemble t)) 0 := frmOf_getElem _ 0
    _ = wordAt (nrzi (preamble ++ flag)) 0 := by
      rw [hsplit, nrzi, nrziFrom_append]
      exact wordAt_zero_append (nrziFrom_length false _) _
    _ = 0x666666FE#32 := by decide

end Sys2Proof.Machine
end

section
/-! The packed payload: its fields are slices of the operand registers, and it has few ones (40_field_packing.md R132, R133,
R137; 44_frame_assembly.md R196). -/
namespace Sys2Proof.Machine

/-! ### The regions of a packed payload -/

theorem bitsOf_zero (n : Nat) : bitsOf n 0 = zeros n := by
  induction n with
  | zero => rfl
  | succ k ih => simp [bitsOf, ih, zeros, List.replicate_succ]

theorem zeros_append_zeros (m n : Nat) : zeros m ++ zeros n = zeros (m + n) := List.replicate_append_replicate

/-- The message type, the three operand fields, and zeros between and after them (40_field_packing.md R133). -/
theorem packType1_eq (m lo la : Int) :
    packType1 m lo la = bitsOf 8 4 ++ (field m 30 ++ (zeros 23 ++ (field lo 28 ++ (field la 27 ++ zeros 52)))) := by
  have htype : bitsOf 8 4 = bitsOf 6 1 ++ zeros 2 := rfl
  simp [packType1, Config.navStatus, bitsOf_zero, zeros_append_zeros, htype]

/-! ### The fields as register slices -/

/-- Field(v, n) holds v modulo 2^n, most significant bit first (40_field_packing.md R132). -/
theorem bitAt_field (v : Int) {n i : Nat} (hi : i < n) : bitAt (field v n) i = (BitVec.ofInt n v).getLsbD (n - 1 - i) := by
  rw [field, bitAt_bitsOf n _ i hi, BitVec.getLsbD, BitVec.toNat_ofInt]

/-- A field of an unsigned register is its low bits (10_state.md R23). -/
theorem bitAt_field_toNat (w : Word) {n i : Nat} (hi : i < n) :
    bitAt (field (w.toNat : Int) n) i = w.getLsbD (n - 1 - i) := by
  rw [bitAt_field _ hi, BitVec.ofInt_natCast, BitVec.getLsbD_ofNat, ← BitVec.getLsbD]
  simp
  omega

/-- A field of a signed register is its low bits too (10_state.md R24, R25). -/
theorem bitAt_field_toInt (w : Word) {n i : Nat} (hn : n ≤ 32) (hi : i < n) :
    bitAt (field w.toInt n) i = w.getLsbD (n - 1 - i) := by
  rw [bitAt_field _ hi, ← BitVec.signExtend, BitVec.getLsbD_signExtend, if_pos (by omega)]
  simp
  omega

/-! ### Each region at its place -/

theorem bitAt_append_add {a : Bits} {n : Nat} (h : a.length = n) (b : Bits) (i : Nat) : bitAt (a ++ b) (n + i) = bitAt b i := by
  rw [bitAt_append_right _ _ _ (by omega), h, Nat.add_sub_cancel_left]

section
variable (m lo la : Int)

theorem bitAt_packType1_messageType {i : Nat} (hi : i < 8) : bitAt (packType1 m lo la) i = (i == 5) := by
  rw [packType1_eq, bitAt_append_left _ _ _ (by simpa using hi)]
  interval_cases i <;> rfl

theorem bitAt_packType1_mmsi {i : Nat} (hi : i < 30) : bitAt (packType1 m lo la) (8 + i) = bitAt (field m 30) i := by
  rw [packType1_eq, bitAt_append_add (bitsOf_length 8 4), bitAt_append_left _ _ _ (by simpa using hi)]

/-- Navigation status, rate of turn, speed and accuracy are 0 (40_field_packing.md R133; log 9). -/
theorem bitAt_packType1_status {i : Nat} (hi : i < 23) : bitAt (packType1 m lo la) (38 + i) = false := by
  rw [show 38 + i = 8 + (30 + i) by omega, packType1_eq, bitAt_append_add (bitsOf_length 8 4),
    bitAt_append_add (field_length m 30), bitAt_append_left _ _ _ (by simpa using hi), bitAt_zeros]

/-- The payload from the longitude on. -/
theorem bitAt_packType1_coordinates (i : Nat) :
    bitAt (packType1 m lo la) (61 + i) = bitAt (field lo 28 ++ (field la 27 ++ zeros 52)) i := by
  rw [show 61 + i = 8 + (30 + (23 + i)) by omega, packType1_eq, bitAt_append_add (bitsOf_length 8 4),
    bitAt_append_add (field_length m 30), bitAt_append_add (zeros_length 23)]

theorem bitAt_packType1_lon {i : Nat} (hi : i < 28) : bitAt (packType1 m lo la) (61 + i) = bitAt (field lo 28) i := by
  rw [bitAt_packType1_coordinates, bitAt_append_left _ _ _ (by simpa using hi)]

theorem bitAt_packType1_lat {i : Nat} (hi : i < 27) : bitAt (packType1 m lo la) (89 + i) = bitAt (field la 27) i := by
  rw [show 89 + i = 61 + (28 + i) by omega, bitAt_packType1_coordinates, bitAt_append_add (field_length lo 28),
    bitAt_append_left _ _ _ (by simpa using hi)]

/-- Course, heading, time stamp and the fields after them are 0 (40_field_packing.md R133). -/
theorem bitAt_packType1_tail (i : Nat) : bitAt (packType1 m lo la) (116 + i) = false := by
  rw [show 116 + i = 61 + (28 + (27 + i)) by omega, bitAt_packType1_coordinates, bitAt_append_add (field_length lo 28),
    bitAt_append_add (field_length la 27), bitAt_zeros]

end

/-! ### The ones -/

theorem ones_zeros (n : Nat) : ones (zeros n) = 0 := by simp [ones, zeros]

theorem ones_field_le (v : Int) (n : Nat) : ones (field v n) ≤ n :=
  (ones_le_length _).trans_eq (field_length v n)

/-- One bit of the message type, and at most the 85 bits of the operand fields (40_field_packing.md R137). -/
theorem ones_packType1_le (m lo la : Int) : ones (packType1 m lo la) ≤ 86 := by
  have htype : ones (bitsOf 8 4) = 1 := rfl
  have hm := ones_field_le m 30
  have hlo := ones_field_le lo 28
  have hla := ones_field_le la 27
  rw [packType1_eq]
  simp only [ones_append, ones_zeros, htype]
  omega

/-- Settles O51: each bit by the region it stands in. -/
theorem packedPayloadBits : Obligations.PackedPayloadBits := by
  intro m lo la
  refine ⟨packType1_length _ _ _, fun i hi => ?_, fun i hi => ?_, fun i hi => ?_,
    fun i hi => bitAt_packType1_messageType _ _ _ hi, fun i hi => ?_, ones_packType1_le _ _ _⟩
  · exact (bitAt_packType1_mmsi _ _ _ hi).trans (bitAt_field_toNat m hi)
  · exact (bitAt_packType1_lon _ _ _ hi).trans (bitAt_field_toInt lo (by decide) hi)
  · exact (bitAt_packType1_lat _ _ _ hi).trans (bitAt_field_toInt la (by decide) hi)
  · rcases hi with ⟨hlow, hhigh⟩ | ⟨hlow, _⟩
    · obtain ⟨k, rfl⟩ := Nat.exists_eq_add_of_le hlow
      exact bitAt_packType1_status _ _ _ (by omega)
    · obtain ⟨k, rfl⟩ := Nat.exists_eq_add_of_le hlow
      exact bitAt_packType1_tail _ _ _ k

/-! ### The stuffed length -/

/-- Byte reversal keeps the number of ones (42_bit_reversal.md R171). -/
theorem ones_revBytes (s : Bits) (h : s.length % 8 = 0) : ones (revBytes s) = ones s := by
  refine bytes_induction (P := fun s => ones (revBytes s) = ones s) rfl ?_ s h
  intro b0 b1 b2 b3 b4 b5 b6 b7 rest _ ih
  simp only [revBytes, ones_cons, ih]
  omega

/-- The CRC adds at most its 16 bits to the ones of the payload (42_bit_reversal.md R170). -/
theorem ones_txData_le {p : Bits} (hp : p.length = 168) : ones (txData p) ≤ ones p + 16 := by
  have hcrc := ones_le_length (crcField (crc16X25 (bytesOf p)))
  rw [crcField_length] at hcrc
  rw [txData, ones_revBytes _ (by simp [hp]), dataOf, ones_append]
  omega

/-- Settles O52: at most 86 + 16 ones, so at most 20 stuffed zeros on 184 bits. -/
theorem packedPayloadNeverOverflows : Obligations.PackedPayloadNeverOverflows := by
  intro m lo la
  have hlen := packType1_length m lo la
  have hones := ones_packType1_le m lo la
  have htx := ones_txData_le hlen
  have hdata := txData_length _ hlen
  obtain ⟨_, hstuffed⟩ := stuffFrom_length_bounds (txData (packType1 m lo la)) 0 (by omega)
  rw [← stuff] at hstuffed
  simp only [stuffedLength]
  omega

end Sys2Proof.Machine
end

section
/-! PACK at its completing step, and the same packing under the MASK policy (40_field_packing.md R131, R135, R136;
47_commands.md R232, R237). -/
namespace Sys2Proof.Machine

/-- The completing step of a command at Level F (47_commands.md R237). -/
theorem exec_completing {s : State} {op : Pending} {i : Instr} (h : Completing s op) (hi : pendingInstr op = some i) :
    exec i s = .next (complete (pendingBody op s)) := by
  obtain ⟨hbusy, rfl, hlevel, hlatency⟩ := h
  rw [exec_pending s i hi, engineCommand, if_pos hbusy, if_pos rfl]
  simp [engineStep, hlevel, hlatency]

/-- No bit of the mask is set exactly when no operand is out of range (40_field_packing.md R131). -/
theorem rangeBad_eq_zero_iff (m la lo : Int) :
    rangeBad m la lo = 0#8 ↔ mmsiBad m = false ∧ latBad la = false ∧ lonBad lo = false := by
  simp only [rangeBad]
  cases mmsiBad m <;> cases latBad la <;> cases lonBad lo <;> decide

theorem mmsiBad_eq_false_iff (m : Nat) : mmsiBad (m : Int) = false ↔ m < 2 ^ 30 := by
  simp only [mmsiBad, Config.mmsiLimit, decide_eq_false_iff_not]
  omega

theorem latBad_eq_false_iff (la : Int) : latBad la = false ↔ -54000000 ≤ la ∧ la ≤ 54000000 := by
  simp [latBad, Config.latLimit]

theorem lonBad_eq_false_iff (lo : Int) : lonBad lo = false ↔ -108000000 ≤ lo ∧ lo ≤ 108000000 := by
  simp [lonBad, Config.lonLimit]

/-- The range check passes exactly on the operand domains (40_field_packing.md R131). -/
theorem rangeBad_eq_zero_iff_inRange (r : HostRegs) :
    rangeBad (mmsiVal r) (latVal r) (lonVal r) = 0#8 ↔ OperandsInRange r := by
  rw [rangeBad_eq_zero_iff, mmsiBad_eq_false_iff, latBad_eq_false_iff, lonBad_eq_false_iff]

/-- Settles O23: the range check passes, so the body of PACK is its two register writes. -/
theorem packPacksTheReport : Obligations.PackPacksTheReport := by
  intro s hcompleting hrange
  have hbody := packBody_eq s
  rw [if_neg (not_not.mpr ((rangeBad_eq_zero_iff_inRange s.regs).mpr hrange))] at hbody
  rw [exec_completing hcompleting rfl, pendingBody, hbody]
  rfl

/-- Settles O31: without the range check only the length self-check is left, which never fails. -/
theorem maskPolicyNeverRejects : Obligations.MaskPolicyNeverRejects := by
  intro s
  rw [doPack, if_neg (by simp), if_neg (not_not.mpr (packType1_length _ _ _))]

end Sys2Proof.Machine
end

section
/-! ScaleDeg (40_field_packing.md R130): the floor of the exact product, or the integer above it. -/
namespace Sys2Proof.Machine

/-- The floor where the rest is at most half of the denominator, the next integer where it is at least half. -/
theorem scaleDeg_cases (num : Int) (den : Nat) :
    (scaleDeg num den = num * 600000 / den ∧ 2 * (num * 600000 % den) ≤ den)
      ∨ (scaleDeg num den = num * 600000 / den + 1 ∧ den ≤ 2 * (num * 600000 % den)) := by
  have hfloor : (num * 600000).fdiv den = num * 600000 / den := Int.fdiv_eq_ediv_of_nonneg _ (Int.natCast_nonneg den)
  have hrest : num * 600000 - num * 600000 / den * den = num * 600000 % den := by
    rw [Int.emod_def, Int.mul_comm (den : Int)]
  simp only [scaleDeg, Config.coordScale, Nat.cast_ofNat, hfloor, hrest]
  split
  next hbelow => exact .inl ⟨rfl, hbelow.le⟩
  next hnotBelow =>
    split
    next habove => exact .inr ⟨rfl, habove.le⟩
    next hnotAbove =>
      split
      · exact .inr ⟨rfl, not_lt.mp hnotBelow⟩
      · exact .inl ⟨rfl, not_lt.mp hnotAbove⟩

/-- Settles O54: the exact product is the floor times the denominator plus a rest in 0..den - 1. -/
theorem scaledDegreesAreNearest : Obligations.ScaledDegreesAreNearest := by
  intro num den hden
  have hpos : (0 : Int) < den := Int.natCast_pos.mpr hden
  have hrest := Int.emod_nonneg (num * 600000) hpos.ne'
  have hrest' := Int.emod_lt_of_pos (num * 600000) hpos
  have hproduct := Int.emod_add_ediv_mul (num * 600000) den
  rcases scaleDeg_cases num den with ⟨hscale, hhalf⟩ | ⟨hscale, hhalf⟩ <;> rw [hscale]
  · constructor <;> linarith
  · rw [add_mul, one_mul]
    constructor <;> linarith

end Sys2Proof.Machine
end

section
/-! What a step can do to STATUS (47_commands.md R237, 60_exceptions.md R300, R304, R308): AssertionFailure is not among it. -/
namespace Sys2Proof.Machine

/-- What an engine step can do to STATUS: keep it, complete without an error, or enter an error other than
AssertionFailure (47_commands.md R237, 60_exceptions.md R308). -/
inductive StatusEffect (st : Status) : Status → Prop
  | kept : StatusEffect st st
  | finished : StatusEffect st (finishStatus st)
  | raised (k : ErrorKind) (info : Byte) (hk : k ≠ .assertionFailure) : StatusEffect st (errorStatus k info)

/-- STATUS after an engine step from `s` to `t`. -/
abbrev StatusStep (s t : State) : Prop := StatusEffect s.regs.status t.regs.status

theorem frameBody_status (s : State) : StatusStep s (complete (frameBody s)) := by
  rw [frameBody_eq]
  split
  · exact .raised _ _ (by decide)
  · split
    · exact .raised _ _ (by decide)
    · exact .finished

/-- STATUS at the completion of a command, Level F (47_commands.md R237). -/
theorem complete_status (op : Pending) (s : State) : StatusStep s (complete (pendingBody op s)) := by
  cases op with
  | none => exact .finished
  | pack =>
    rcases packBody_cases s with ⟨info, _, h⟩ | ⟨p, h⟩ <;> simp only [pendingBody, h]
    · exact .raised _ _ (by decide)
    · exact .finished
  | frame => exact frameBody_status s
  | packframe =>
    rcases packBody_cases s with ⟨info, _, h⟩ | ⟨p, h⟩ <;> simp only [pendingBody, packframeBody, h]
    · exact .raised _ _ (by decide)
    · exact frameBody_status { s with regs := { s.regs with pay := payOf p, paylen := 168#8 } }
  | crc =>
    simp only [pendingBody, crcBody]
    split
    · exact .raised _ _ (by decide)
    · exact .finished

theorem startFraming_status (s : State) : StatusStep s (startFraming s) := by
  unfold startFraming
  split
  · exact .raised _ _ (by decide)
  · exact .kept

theorem startCrc_status (s : State) : StatusStep s (startCrc s) := by
  unfold startCrc
  split
  · exact .raised _ _ (by decide)
  · split
    · exact .finished
    · exact .kept

theorem startStep_status (s : State) : StatusStep s (startStep s) := by
  cases hop : s.pending with
  | none => simp only [startStep, hop]; exact .kept
  | pack => simp only [startStep, hop]; exact complete_status .pack s
  | frame => simp only [startStep, hop]; exact startFraming_status s
  | packframe =>
    rcases packBody_cases s with ⟨info, _, h⟩ | ⟨p, h⟩ <;> simp only [startStep, hop, h]
    · exact .raised _ _ (by decide)
    · exact startFraming_status { s with regs := { s.regs with pay := payOf p, paylen := 168#8 } }
  | crc => simp only [startStep, hop]; exact startCrc_status s

theorem crcDataStep_status (s : State) : StatusStep s (crcDataStep s) := by
  unfold crcDataStep
  split
  · exact .finished
  · exact .kept

theorem padStep_status (s : State) : StatusStep s (padStep s) := by
  unfold padStep
  split
  · exact .raised _ _ (by decide)
  · split
    · exact .finished
    · exact .kept

/-- A step that sends one bit and counts it keeps STATUS (48_serial_engine.md R264 to R268). -/
theorem countTo_status (limit : Nat) (after : Phase) (w : Work) (s : State) : StatusStep s (countTo limit after w s) := by
  rw [StatusStep, countTo_regs]
  exact .kept

theorem phaseStep_status (s : State) : StatusStep s (phaseStep s) := by
  cases hphase : s.phase with
  | idle => simp only [phaseStep, hphase]; exact .kept
  | start => simp only [phaseStep, hphase]; exact startStep_status s
  | pre => simp only [phaseStep, hphase]; exact countTo_status _ _ _ s
  | sflag => simp only [phaseStep, hphase]; exact countTo_status _ _ _ s
  | data =>
    simp only [phaseStep, hphase]
    split
    · exact crcDataStep_status s
    · exact countTo_status _ _ _ s
  | fcs => simp only [phaseStep, hphase]; exact countTo_status _ _ _ s
  | eflag => simp only [phaseStep, hphase]; exact countTo_status _ _ _ s
  | pad => simp only [phaseStep, hphase]; exact padStep_status s

/-- STATUS at an engine step of either level. -/
theorem engineStep_status (op : Pending) (s : State) : StatusStep s (engineStep (pendingBody op) s) := by
  rcases engineStep_cases (pendingBody op) s with ⟨_, _, h⟩ | ⟨_, _, h⟩ | ⟨_, h⟩ <;> rw [h]
  · exact complete_status op s
  · exact .kept
  · unfold serialStep
    split
    · exact .kept
    · exact phaseStep_status s

theorem StatusEffect.err_ne_assertionFailure {st st' : Status} (h : StatusEffect st st')
    (hst : st.err ≠ some .assertionFailure) : st'.err ≠ some .assertionFailure := by
  cases h with
  | kept => exact hst
  | finished => exact hst
  | raised k info hk => simpa using hk

/-- Settles O38: of the effects of a step only ILLCMD and an engine step enter an error, and neither enters this one. -/
theorem assertionFailureIsNeverRaised : Obligations.AssertionFailureIsNeverRaised := by
  intro s t hstep hs
  cases step_effect hstep with
  | unchanged h => rwa [h.regs]
  | reset => simp [resetRegs, resetStatus]
  | operandWrite => simpa using hs
  | accepted => exact hs
  | cleared =>
    rcases clearStatus_cases s.regs.status with h | h <;> simp [h, hs]
  | illegal => simp
  | engine => exact (engineStep_status s.pending (giveEngine s)).err_ne_assertionFailure hs

end Sys2Proof.Machine
end

section
/-! The CRC generator and the transmitted order (41_crc.md R150 to R155, 42_bit_reversal.md R170 to R173), and the CRC
command at its completing step (47_commands.md R235, R237). -/
namespace Sys2Proof.Machine

/-- Settles O29: the length test passes, so the body of CRC writes CRCVAL and the CRC working register. -/
theorem crcComputesOverThePayload : Obligations.CrcComputesOverThePayload := by
  intro s hcompleting hbytes hle
  have hbody := crcBody_eq s
  rw [if_neg (by omega)] at hbody
  refine ⟨{ s.work with crc := crcRegister (crcInput s.regs) }, ?_⟩
  rw [exec_completing hcompleting rfl, pendingBody, hbody]
  rfl

/-- Settles O41: a shift step is linear, so eight steps feed in the byte and move the register's high byte down. -/
theorem serialCrcEqualsTableCrc : Obligations.SerialCrcEqualsTableCrc := crcByte_eq_crcBits

/-- Settles O42: by induction on the bytes, each of which the shift register takes least significant bit first. -/
theorem crcConsumesTheTransmittedOrder : Obligations.CrcConsumesTheTransmittedOrder :=
  fun _ hp => foldl_crcBit_txData hp

/-- Settles O43: the payload's part of the transmitted data, then the CRC's part. -/
theorem transmittedDataFormula : Obligations.TransmittedDataFormula := by
  intro p hp
  refine ⟨txData_length p hp, fun i hi => bitAt_txData_payload hp hi, fun i hlow hhigh => ?_⟩
  have hcrc := bitAt_txData_crc hp (i := i - 168) (by omega)
  rwa [Nat.add_sub_cancel' hlow] at hcrc

end Sys2Proof.Machine
end

section
/-! Byte reversal by itself (42_bit_reversal.md R171). -/
namespace Sys2Proof.Machine

theorem revIndex_of_byte (k : Nat) {j : Nat} (hj : j < 8) : revIndex (8 * k + j) = 8 * k + 7 - j := by
  simp only [revIndex]
  omega

/-- Reversal is its own inverse, byte by byte (42_bit_reversal.md R171). -/
theorem revBytes_revBytes (s : Bits) (h : s.length % 8 = 0) : revBytes (revBytes s) = s := by
  refine bytes_induction (P := fun s => revBytes (revBytes s) = s) rfl ?_ s h
  intro b0 b1 b2 b3 b4 b5 b6 b7 rest _ ih
  simp only [revBytes, ih]

/-- Settles O44: the bit at position 8k + j comes from the mirrored index of its byte; the rest is by induction on the
bytes. -/
theorem byteReversalIsAnInvolution : Obligations.ByteReversalIsAnInvolution := by
  intro s hbytes
  refine ⟨revBytes_length_of_bytes s hbytes, fun k j hj hk => ?_, revBytes_revBytes s hbytes, ones_revBytes s hbytes⟩
  rw [bitAt_revBytes s _ hbytes (by omega), revIndex_of_byte k hj]

end Sys2Proof.Machine
end

section
/-! Bit stuffing by itself (43_bit_stuffing.md R180 to R184), and FRAME on a payload that does not fit (60_exceptions.md
R303). RUN is at most 4 between bits, so a bit is one of three: a zero, a one, or the fifth one in a row. -/
namespace Sys2Proof.Machine

/-! ### The three cases of a bit -/

theorem stuffFrom_zero (run : Nat) (s : Bits) : stuffFrom run (false :: s) = false :: stuffFrom 0 s := rfl

theorem stuffFrom_one {run : Nat} (h : run < 4) (s : Bits) :
    stuffFrom run (true :: s) = true :: stuffFrom (run + 1) s := by
  simp [stuffFrom, stuffStep, Config.stuffRun, h.ne]

theorem stuffFrom_fifth (s : Bits) : stuffFrom 4 (true :: s) = true :: false :: stuffFrom 0 s := rfl

theorem destuffFrom_zero (run : Nat) (t : Bits) :
    destuffFrom run false (false :: t) = false :: destuffFrom 0 false t := rfl

theorem destuffFrom_one {run : Nat} (h : run < 4) (t : Bits) :
    destuffFrom run false (true :: t) = true :: destuffFrom (run + 1) false t := by
  simp [destuffFrom, Config.stuffRun, h.ne]

theorem destuffFrom_fifth (b : Bool) (t : Bits) :
    destuffFrom 4 false (true :: b :: t) = true :: destuffFrom 0 false t := rfl

/-- Induction on the bits still to stuff, RUN in 0..4 (10_state.md R33, 43_bit_stuffing.md R181). -/
theorem stuffing_induction {motive : (s : Bits) → (run : Nat) → run ≤ 4 → Prop}
    (nil : ∀ run h, motive [] run h)
    (zero : ∀ run s h, motive s 0 (Nat.zero_le 4) → motive (false :: s) run h)
    (one : ∀ run s, (h : run < 4) → motive s (run + 1) h → motive (true :: s) run h.le)
    (fifth : ∀ s, motive s 0 (Nat.zero_le 4) → motive (true :: s) 4 le_rfl)
    (s : Bits) (run : Nat) (h : run ≤ 4) : motive s run h := by
  induction s generalizing run with
  | nil => exact nil run h
  | cons b s ih =>
    cases b with
    | false => exact zero run s h (ih 0 _)
    | true =>
      rcases h.lt_or_eq with hlt | rfl
      · exact one run s hlt (ih (run + 1) hlt)
      · exact fifth s (ih 0 _)

/-! ### Runs of ones -/

theorem ones_prefix_iff (n m : Nat) (t : Bits) :
    List.replicate n true <+: List.replicate m true ++ false :: t ↔ n ≤ m := by
  induction m generalizing n with
  | zero => cases n <;> simp [List.replicate_succ]
  | succ m ih =>
    cases n with
    | zero => simp
    | succ n => simp [List.replicate_succ, ih]

/-- A run of ones ends at a zero: it stands before the zero or after it. -/
theorem ones_infix_iff (n m : Nat) (t : Bits) :
    List.replicate n true <:+: List.replicate m true ++ false :: t ↔ n ≤ m ∨ List.replicate n true <:+: t := by
  induction m with
  | zero => exact List.infix_cons_iff.trans (or_congr_left (ones_prefix_iff n 0 t))
  | succ m ih =>
    have hprefix := ones_prefix_iff n (m + 1) t
    rw [List.replicate_succ, List.cons_append] at hprefix ⊢
    rw [List.infix_cons_iff, hprefix, ih, ← or_assoc, or_iff_left_of_imp Nat.le_succ_of_le]

/-- The one that RUN counts next. -/
theorem ones_append_one (run : Nat) (t : Bits) :
    List.replicate run true ++ true :: t = List.replicate (run + 1) true ++ t := by
  rw [List.replicate_succ', List.append_assoc, List.singleton_append]

/-- Not even together with the ones that RUN has counted does stuffed data hold six ones (43_bit_stuffing.md R183). -/
theorem no_six_ones_stuffFrom (s : Bits) (run : Nat) (h : run ≤ 4) :
    ¬ List.replicate 6 true <:+: List.replicate run true ++ stuffFrom run s := by
  induction s, run, h using stuffing_induction with
  | nil run h =>
    intro hinfix
    have : 6 ≤ run := by simpa [stuffFrom] using hinfix.length_le
    omega
  | zero run s h ih =>
    rw [stuffFrom_zero, ones_infix_iff]
    exact not_or.mpr ⟨by omega, ih⟩
  | one run s h ih => rwa [stuffFrom_one h, ones_append_one]
  | fifth s ih =>
    rw [stuffFrom_fifth, ones_append_one, ones_infix_iff]
    exact not_or.mpr ⟨by omega, ih⟩

/-- Nothing is inserted exactly when the bits, after the ones that RUN has counted, hold no five ones in a row
(43_bit_stuffing.md R182). -/
theorem stuffFrom_length_eq_iff (s : Bits) (run : Nat) (h : run ≤ 4) :
    (stuffFrom run s).length = s.length ↔ ¬ List.replicate 5 true <:+: List.replicate run true ++ s := by
  induction s, run, h using stuffing_induction with
  | nil run h =>
    refine iff_of_true rfl fun hinfix => ?_
    have : 5 ≤ run := by simpa using hinfix.length_le
    omega
  | zero run s h ih =>
    rw [stuffFrom_zero, List.length_cons, List.length_cons, Nat.add_right_cancel_iff, ones_infix_iff, ih]
    simp [show ¬ 5 ≤ run by omega]
  | one run s h ih =>
    rw [stuffFrom_one h, ones_append_one, ← ih, List.length_cons, List.length_cons, Nat.add_right_cancel_iff]
  | fifth s ih =>
    obtain ⟨hgrows, _⟩ := stuffFrom_length_bounds s 0 (Nat.zero_le 4)
    rw [stuffFrom_fifth, ones_append_one]
    refine iff_of_false ?_ (not_not.mpr (List.prefix_append _ _).isInfix)
    simp only [List.length_cons]
    omega

/-! ### The statements -/

/-- De-stuffing that starts with the same run count undoes stuffing (43_bit_stuffing.md R184). -/
theorem destuffFrom_stuffFrom (s : Bits) (run : Nat) (h : run ≤ 4) : destuffFrom run false (stuffFrom run s) = s := by
  induction s, run, h using stuffing_induction with
  | nil => rfl
  | zero run s h ih => rw [stuffFrom_zero, destuffFrom_zero, ih]
  | one run s h ih => rw [stuffFrom_one h, destuffFrom_one h, ih]
  | fifth s ih => rw [stuffFrom_fifth, destuffFrom_fifth, ih]

/-- Settles O45: both start with the run count 0. -/
theorem destuffingUndoesStuffing : Obligations.DestuffingUndoesStuffing :=
  fun s => destuffFrom_stuffFrom s 0 (Nat.zero_le 4)

theorem six_ones_infix_flag : List.replicate 6 true <:+: flag := ⟨[false], [false], rfl⟩

/-- Settles O46: the flag holds six ones, and stuffed data does not. -/
theorem stuffedDataHoldsNoFlag : Obligations.StuffedDataHoldsNoFlag := by
  intro s
  have hsix : ¬ List.replicate 6 true <:+: stuff s := no_six_ones_stuffFrom s 0 (Nat.zero_le 4)
  exact ⟨hsix, fun hflag => hsix (six_ones_infix_flag.trans hflag)⟩

/-- Settles O47: k is the growth in length, which the bounds and the case of no growth describe. -/
theorem stuffedLengthBounds : Obligations.StuffedLengthBounds := by
  intro s
  obtain ⟨hgrows, hfifth⟩ := stuffFrom_length_bounds s 0 (Nat.zero_le 4)
  have hnone : (stuffFrom 0 s).length = s.length ↔ ¬ List.replicate 5 true <:+: s :=
    stuffFrom_length_eq_iff s 0 (Nat.zero_le 4)
  have hones := ones_le_length s
  rw [← stuff] at hgrows hfifth hnone
  refine ⟨(stuff s).length - s.length, by omega, by omega, by omega, ?_⟩
  rw [← hnone]
  omega

/-- Settles O27: the fit check fails, and a stuffed length of at most 220 is its own low byte. -/
theorem frameReportsOverflow : Obligations.FrameReportsOverflow := by
  intro s hcompleting hpaylen hover
  have hbody := frameBody_eq s
  rw [if_neg (not_not.mpr hpaylen), if_pos hover] at hbody
  obtain ⟨_, hmax⟩ := stuffedLength_bounds (payBits s.regs) (payBits_length s.regs)
  have hinfo : (BitVec.ofNat 8 (stuffedLength (payBits s.regs))).toNat = stuffedLength (payBits s.regs) := by
    rw [BitVec.toNat_ofNat]
    omega
  refine ⟨BitVec.ofNat 8 (stuffedLength (payBits s.regs)), ?_, hinfo, by omega, by omega⟩
  rw [exec_completing hcompleting rfl, pendingBody, hbody]
  rfl

end Sys2Proof.Machine
end

section
/-! The assembled frame region by region (44_frame_assembly.md R192, R197), and PACKFRAME at its completing step
(44_frame_assembly.md R196; 47_commands.md R234, R237, R238). -/
namespace Sys2Proof.Machine

/-! ### The regions of an assembled frame -/

/-- The regions in order, so that each one follows a prefix of known length (44_frame_assembly.md R192). -/
theorem assemble_regions (t : Bits) :
    assemble t = preamble ++ (flag ++ (t ++ (flag ++ zeros (216 - t.length)))) := by
  simp only [assemble, Config.stuffBudget, List.append_assoc]

theorem preamble_length : preamble.length = 24 := rfl

theorem flag_length : flag.length = 8 := rfl

theorem bitAt_preamble {i : Nat} (hi : i < 24) : bitAt preamble i = (i % 2 == 0) := by
  interval_cases i <;> rfl

section
variable (t : Bits)

theorem bitAt_assemble_preamble {i : Nat} (hi : i < 24) : bitAt (assemble t) i = bitAt preamble i := by
  rw [assemble_regions, bitAt_append_left _ _ _ hi]

theorem bitAt_assemble_startFlag {i : Nat} (hi : i < 8) : bitAt (assemble t) (24 + i) = bitAt flag i := by
  rw [assemble_regions, bitAt_append_add preamble_length, bitAt_append_left _ _ _ hi]

/-- The frame from the data on: preamble and start flag take 32 bits. -/
theorem bitAt_assemble_body (i : Nat) :
    bitAt (assemble t) (32 + i) = bitAt (t ++ (flag ++ zeros (216 - t.length))) i := by
  rw [show 32 + i = 24 + (8 + i) by omega, assemble_regions, bitAt_append_add preamble_length,
    bitAt_append_add flag_length]

theorem bitAt_assemble_data {i : Nat} (hi : i < t.length) : bitAt (assemble t) (32 + i) = bitAt t i := by
  rw [bitAt_assemble_body, bitAt_append_left _ _ _ hi]

theorem bitAt_assemble_endFlag {i : Nat} (hi : i < 8) : bitAt (assemble t) (32 + t.length + i) = bitAt flag i := by
  rw [Nat.add_assoc, bitAt_assemble_body, bitAt_append_add rfl, bitAt_append_left _ _ _ hi]

theorem bitAt_assemble_padding (i : Nat) : bitAt (assemble t) (40 + t.length + i) = false := by
  rw [show 40 + t.length + i = 32 + (t.length + (8 + i)) by omega, bitAt_assemble_body, bitAt_append_add rfl,
    bitAt_append_add flag_length, bitAt_zeros]

end

/-- Settles O48: each bit by the region it stands in. -/
theorem assembledFrameRegions : Obligations.AssembledFrameRegions := by
  intro t hfits
  refine ⟨assemble_length_of_fits t hfits, fun i hi => ?_, fun i hi => bitAt_assemble_startFlag t hi,
    fun i hi => bitAt_assemble_data t hi, fun i hi => bitAt_assemble_endFlag t hi, fun i hlow _ => ?_⟩
  · rw [bitAt_assemble_preamble t hi, bitAt_preamble hi]
  · obtain ⟨k, rfl⟩ := Nat.exists_eq_add_of_le hlow
    exact bitAt_assemble_padding t k

/-! ### PACKFRAME -/

/-- What the PACK part hands to the FRAME part: the packed report stored, nothing else changed (40_field_packing.md R136). -/
abbrev withReport (s : State) : State :=
  { s with regs := { s.regs with pay := payOf (packed s.regs), paylen := 168#8 } }

theorem packBody_of_inRange {s : State} (h : OperandsInRange s.regs) : packBody s = .done (withReport s) := by
  rw [packBody_eq, if_neg (not_not.mpr ((rangeBad_eq_zero_iff_inRange s.regs).mpr h))]

theorem payBits_withReport (s : State) : payBits (withReport s).regs = packed s.regs :=
  payBits_payOf { s.regs with paylen := 168#8 } (packed s.regs) (packType1_length _ _ _)

/-- A payload of the right length whose stuffed data fits is framed (47_commands.md R233). -/
theorem frameBody_of_fits {s : State} (hlen : s.regs.paylen = 168#8) (hfits : stuffedLength (payBits s.regs) ≤ 216) :
    frameBody s =
      .done { s with
        regs := { s.regs with
          frm := frmOf (codedFrame (payBits s.regs))
          crcval := crc16X25 (bytesOf (payBits s.regs))
          stufflen := BitVec.ofNat 8 (stuffedLength (payBits s.regs)) }
        work := framedWork (payBits s.regs) s.work } := by
  rw [frameBody_eq, if_neg (not_not.mpr hlen), if_neg (not_lt.mpr hfits)]

/-- A packed report fits with room to spare (44_frame_assembly.md R191, R196). -/
theorem stuffedLength_packed_le (r : HostRegs) : stuffedLength (packed r) ≤ 216 :=
  (packedPayloadNeverOverflows _ _ _).trans (by decide)

/-- Settles O28: the PACK part stores the packed report, which is what the FRAME part reads back, and its stuffed length of
at most 205 fits. -/
theorem packframeEncodesTheReport : Obligations.PackframeEncodesTheReport := by
  intro s hcompleting hrange
  have hpay := payBits_withReport s
  have hfits := stuffedLength_packed_le s.regs
  rw [← hpay] at hfits
  have hframe := frameBody_of_fits (s := withReport s) rfl hfits
  rw [hpay] at hframe
  refine ⟨framedWork (packed s.regs) s.work, ?_⟩
  rw [exec_completing hcompleting rfl, pendingBody, packframeBody, packBody_of_inRange hrange]
  exact congrArg (Host.Outcome.next ∘ complete) hframe

end Sys2Proof.Machine
end

section
/-! The line code and its decoder (45_nrzi.md R210, R211, R213): bit by bit, and as inverses of each other. -/
namespace Sys2Proof.Machine

/-! ### One step -/

/-- The line keeps its level exactly for a one (45_nrzi.md R210). -/
theorem nrziStep_beq_last (last b : Bool) : (nrziStep last b == last) = b := by
  cases last <;> cases b <;> rfl

/-- The bit decoded from a level, coded again, gives that level (45_nrzi.md R213). -/
theorem nrziStep_beq (last level : Bool) : nrziStep last (level == last) = level := by
  cases last <;> cases level <;> rfl

/-! ### Bit by bit

The level before bit i of `g` is bit i of `last :: g`. -/

theorem bitAt_cons (b : Bool) (s : Bits) (i : Nat) : bitAt (b :: s) i = if i = 0 then b else bitAt s (i - 1) := by
  cases i <;> rfl

theorem bitAt_nrziFrom (last : Bool) {f : Bits} {i : Nat} (hi : i < f.length) :
    bitAt (nrziFrom last f) i = nrziStep (bitAt (last :: nrziFrom last f) i) (bitAt f i) := by
  induction f generalizing last i with
  | nil => exact absurd hi (Nat.not_lt_zero i)
  | cons b f ih =>
    cases i with
    | zero => rfl
    | succ i => exact ih (nrziStep last b) (Nat.lt_of_succ_lt_succ hi)

theorem bitAt_unnrziFrom (last : Bool) {g : Bits} {i : Nat} (hi : i < g.length) :
    bitAt (unnrziFrom last g) i = (bitAt g i == bitAt (last :: g) i) := by
  induction g generalizing last i with
  | nil => exact absurd hi (Nat.not_lt_zero i)
  | cons b g ih =>
    cases i with
    | zero => rfl
    | succ i => exact ih b (Nat.lt_of_succ_lt_succ hi)

/-! ### The round trip -/

theorem unnrziFrom_nrziFrom (last : Bool) (f : Bits) : unnrziFrom last (nrziFrom last f) = f := by
  induction f generalizing last with
  | nil => rfl
  | cons b f ih => rw [nrziFrom, unnrziFrom, nrziStep_beq_last, ih]

theorem nrziFrom_unnrziFrom (last : Bool) (g : Bits) : nrziFrom last (unnrziFrom last g) = g := by
  induction g generalizing last with
  | nil => rfl
  | cons b g ih => rw [unnrziFrom, nrziFrom, nrziStep_beq, ih]

/-- Settles O49: coder and decoder both start from level 0. -/
theorem nrziRoundTrip : Obligations.NrziRoundTrip := by
  intro f
  refine ⟨nrzi_length f, fun i hi => ?_, fun i hi => ?_, unnrziFrom_nrziFrom false f, nrziFrom_unnrziFrom false f⟩
  · rw [← bitAt_cons]
    exact bitAt_nrziFrom false hi
  · rw [← bitAt_cons]
    exact bitAt_unnrziFrom false hi

end Sys2Proof.Machine
end

section
/-! The first moments of a command: acceptance, refusal, and the engine steps before the completing one (47_commands.md
R230, R237; 60_exceptions.md R310). -/
namespace Sys2Proof.Machine

/-- exec of an engine command, in any state (47_commands.md R230, R237). -/
theorem exec_engineCommand {op : Pending} {i : Instr} (hop : pendingInstr op = some i) (s : State) :
    exec i s = engineCommand op i (pendingBody op) s := by
  cases op <;> cases hop <;> rfl

/-- In the idle block without an error an engine command is accepted. -/
theorem exec_accepted {op : Pending} {i : Instr} (hop : pendingInstr op = some i) {s : State}
    (hidle : s.regs.status.busy = false) (herr : s.regs.status.err = none) : exec i s = .next (accept op i s) := by
  simp [exec_engineCommand hop, engineCommand, hidle, herr]

/-- In the idle block with an error pending an engine command is refused. -/
theorem exec_refused {op : Pending} {i : Instr} (hop : pendingInstr op = some i) {s : State}
    (hidle : s.regs.status.busy = false) (herr : s.regs.status.err ≠ none) : exec i s = .next s := by
  simp [exec_engineCommand hop, engineCommand, hidle, herr]

/-- An engine step of the command in the latch before its completing one, Level F. -/
theorem exec_waiting {op : Pending} {i : Instr} (hop : pendingInstr op = some i) {s : State} {n : Nat}
    (hbusy : s.regs.status.busy = true) (hlatch : s.pending = op) (hlevel : s.level = .functional)
    (hlatency : s.latency = n + 1) : exec i s = .next { s with latency := n } := by
  simp [exec_engineCommand hop, engineCommand, engineStep, hbusy, hlatch, hlevel, hlatency]

theorem acceptStatus_of_noError {st : Status} (herr : st.err = none) :
    acceptStatus st = { busy := true, done := false, err := none, errinfo := st.errinfo } := by
  rw [acceptStatus, herr]

/-- Settles O9: each engine command is accepted, and ERR is 0 before and after. -/
theorem engineCommandIsAccepted : Obligations.EngineCommandIsAccepted := by
  intro s hidle herr accepted
  have haccept (op : Pending) (i : Instr) : accept op i s = accepted op i := by
    simp only [accept, accepted, acceptStatus_of_noError herr]
  have hexec (op : Pending) (i : Instr) (hop : pendingInstr op = some i) : exec i s = .next (accepted op i) := by
    rw [exec_accepted hop hidle herr, haccept]
  exact ⟨hexec .pack .pack rfl, hexec .frame .frame rfl, hexec .packframe .packframe rfl, hexec .crc .crc rfl⟩

/-- Settles O11: a waiting step counts down and nothing else. -/
theorem waitingEngineChangesNothing : Obligations.WaitingEngineChangesNothing := by
  intro s n hbusy hlevel hlatency
  have hwait (op : Pending) (i : Instr) (hop : pendingInstr op = some i) (hlatch : s.pending = op) :
      exec i s = .next { s with latency := n } := exec_waiting hop hbusy hlatch hlevel hlatency
  exact ⟨hwait .pack .pack rfl, hwait .frame .frame rfl, hwait .packframe .packframe rfl, hwait .crc .crc rfl⟩

end Sys2Proof.Machine
end

section
/-! The immediate commands NOP and CLRERR, and the words refused while an error is pending (47_commands.md R230, R231, R236;
60_exceptions.md R310, R311). -/
namespace Sys2Proof.Machine

/-- In the idle block a legal word is its command's exec (47_commands.md R230). -/
theorem issue_encode (i : Instr) (s : State) : issue (encode i) s = exec i s := by
  simp [issue, decode_encode]

/-- NOP's word written to CMD is dropped or does nothing (47_commands.md R231). -/
theorem regWrite_nop (s : State) : regWrite 0x00 (encode .nop) s = .next s := by
  cases hbusy : s.regs.status.busy with
  | true => exact regWrite_busy _ _ s hbusy
  | false => rw [regWrite_cmd hbusy, issue_encode, exec, execNop]

/-- Settles O21: exec of NOP is no change, and the write of its word leaves what taking it from the queue leaves. -/
theorem nopChangesNothing : Obligations.NopChangesNothing :=
  ⟨fun _ => rfl, fun s rest hnext => (step_write hnext (by decide) (by decide)).trans (regWrite_nop (afterHost s rest))⟩

theorem exec_clrerr_busy {s : State} (hbusy : s.regs.status.busy = true) : exec .clrerr s = .next s := by
  simp [exec, execClrerr, hbusy]

theorem exec_clrerr_idle {s : State} (hidle : s.regs.status.busy = false) :
    exec .clrerr s = .next (clearError s) := by
  simp [exec, execClrerr, hidle]

/-- The codes CLRERR clears (47_commands.md R236). -/
theorem clearable_iff (k : ErrorKind) : clearable k = true ↔ k ≠ .assertionFailure := by
  cases k <;> decide

theorem clearStatus_of_clearable {st : Status} {k : ErrorKind} (herr : st.err = some k) (hk : k ≠ .assertionFailure) :
    clearStatus st = { st with err := none, errinfo := 0#8 } := by
  simp [clearStatus, herr, (clearable_iff k).mpr hk]

theorem clearStatus_of_noEffect {st : Status} (h : st.err = none ∨ st.err = some .assertionFailure) :
    clearStatus st = st := by
  rcases h with h | h <;> simp [clearStatus, h, clearable]

/-- With an error pending every word but CLRERR's is refused: NOP and the engine commands do nothing, and an illegal word
raises no second error (60_exceptions.md R310). -/
theorem issue_refused {w : Word} {s : State} (hidle : s.regs.status.busy = false) (herr : s.regs.status.err ≠ none)
    (hw : w ≠ encode .clrerr) : issue w s = .next s := by
  cases hdec : decode w with
  | error e => simp [issue, hdec, herr]
  | ok i =>
    obtain rfl : w = encode i := BitVec.eq_of_toNat_eq ((toNat_of_decode_ok hdec).trans (encode_toNat i).symm)
    rw [issue_encode]
    cases i with
    | nop => rfl
    | pack => exact exec_refused (op := .pack) rfl hidle herr
    | frame => exact exec_refused (op := .frame) rfl hidle herr
    | packframe => exact exec_refused (op := .packframe) rfl hidle herr
    | crc => exact exec_refused (op := .crc) rfl hidle herr
    | clrerr => exact absurd rfl hw

/-- Settles O22: by what CLRERR makes of STATUS, and by the refusal of every other word. -/
theorem clrerrClearsTheError : Obligations.ClrerrClearsTheError := by
  intro s
  refine ⟨exec_clrerr_busy, fun hidle => ⟨fun k herr hk => ?_, fun herr => ?_, issue_encode .clrerr s,
    fun w herr hw => issue_refused hidle herr hw⟩⟩
  · rw [exec_clrerr_idle hidle, clearError, clearStatus_of_clearable herr hk, hidle]
  · rw [exec_clrerr_idle hidle, clearError, clearStatus_of_noEffect herr]

end Sys2Proof.Machine
end

section
/-! FRAME and CRC at the completing step of Level F (47_commands.md R233, R235, R237; 60_exceptions.md R301). -/
namespace Sys2Proof.Machine

/-- Settles O25: length and fit are right, so the body of FRAME is its three register writes. -/
theorem frameFramesThePayload : Obligations.FrameFramesThePayload := by
  intro s hcompleting hlen hfits
  refine ⟨framedWork (payBits s.regs) s.work, ?_⟩
  rw [exec_completing hcompleting rfl, pendingBody, frameBody_of_fits hlen hfits]
  rfl

/-- Settles O26: the length test of FRAME comes first and raises with nothing written. -/
theorem frameRejectsOtherLengths : Obligations.FrameRejectsOtherLengths := by
  intro s hcompleting hlen
  rw [exec_completing hcompleting rfl, pendingBody, frameBody_eq, if_pos hlen]
  rfl

/-- Settles O30: the length test of CRC comes first and raises with nothing written. -/
theorem crcRejectsOtherLengths : Obligations.CrcRejectsOtherLengths := by
  intro s hcompleting hlen
  rw [exec_completing hcompleting rfl, pendingBody, crcBody_eq, if_pos hlen]
  rfl

end Sys2Proof.Machine
end

section
/-! How a command ends, at either level: success or an error (70_reset_and_hazards.md R351), and an error with no partial
output (47_commands.md R234, 60_exceptions.md R308, R309). -/
namespace Sys2Proof.Machine

/-! ### Success or error -/

/-- An engine step that clears BUSY in a legal status is a success or an error. -/
theorem StatusEffect.completion {st st' : Status} (h : StatusEffect st st') (hok : StatusOk st) (hbusy : st.busy = true)
    (hidle : st'.busy = false) :
    (st'.done = true ∧ st'.err = none ∧ st'.errinfo = 0#8) ∨ (st'.done = false ∧ st'.err ≠ none) := by
  obtain ⟨hrun, _, hinfo⟩ := hok
  obtain ⟨_, herr⟩ := hrun hbusy
  cases h with
  | kept => simp [hbusy] at hidle
  | finished => exact .inl ⟨rfl, herr, hinfo herr⟩
  | raised k info _ => exact .inr ⟨rfl, by simp⟩

/-- Settles O36: of the effects of a step only the reset and an engine step clear BUSY. -/
theorem completionIsSuccessOrError : Obligations.CompletionIsSuccessOrError := by
  intro s t hstep hok hbusy hidle hreset
  cases step_effect hstep with
  | unchanged h => simp [h.regs, hbusy] at hidle
  | reset h => exact absurd h hreset
  | operandWrite _ _ hs => simp [hbusy] at hs
  | accepted _ hs => simp [hbusy] at hs
  | cleared hs => simp [hbusy] at hs
  | illegal _ hs => simp [hbusy] at hs
  | engine => exact (engineStep_status s.pending (giveEngine s)).completion hok hbusy hidle

/-! ### No partial output -/

/-- What framing does when it ends in an error: the error entry, with the code of a bad length or of a frame too long, and
nothing written before it (47_commands.md R233). -/
inductive FramingError (s : State) : State → Prop
  | noError {t : State} (h : t.regs.status.err = s.regs.status.err) : FramingError s t
  | raised (k : ErrorKind) (info : Byte) (hk : k = .payloadFormatError ∨ k = .frameOverflowError) :
      FramingError s (errorEntry k info s)

/-- What an engine step of the command `op` does when it enters an error: the error entry with nothing written before it,
or, in the FRAME part of PACKFRAME, with the payload packed before (47_commands.md R234, 60_exceptions.md R308, R309). -/
inductive ErrorEffect (op : Pending) (s : State) : State → Prop
  | noError {t : State} (h : t.regs.status.err = s.regs.status.err) : ErrorEffect op s t
  | raised (k : ErrorKind) (info : Byte) : ErrorEffect op s (errorEntry k info s)
  | framePart {t : State} {p : Bits} {n : BitVec 8} (hop : op = .packframe)
      (h : FramingError { s with regs := { s.regs with pay := payOf p, paylen := n } } t) : ErrorEffect op s t

/-- Framing by FRAME, or of a payload already in the buffer. -/
theorem FramingError.errorEffect {s t : State} (h : FramingError s t) (op : Pending) : ErrorEffect op s t := by
  cases h with
  | noError h => exact .noError h
  | raised k info _ => exact .raised k info

theorem frameBody_error (s : State) : FramingError s (complete (frameBody s)) := by
  rw [frameBody_eq]
  split
  · exact .raised _ _ (.inl rfl)
  · split
    · exact .raised _ _ (.inr rfl)
    · exact .noError rfl

theorem startFraming_error (s : State) : FramingError s (startFraming s) := by
  unfold startFraming
  split
  · exact .raised _ _ (.inl rfl)
  · exact .noError rfl

/-- Level F: how a command enters an error (47_commands.md R237). -/
theorem complete_error (op : Pending) (s : State) : ErrorEffect op s (complete (pendingBody op s)) := by
  cases op with
  | none => exact .noError rfl
  | pack =>
    rcases packBody_cases s with ⟨info, _, h⟩ | ⟨p, h⟩ <;> simp only [pendingBody, h]
    · exact .raised _ _
    · exact .noError rfl
  | frame => exact (frameBody_error s).errorEffect _
  | packframe =>
    rcases packBody_cases s with ⟨info, _, h⟩ | ⟨p, h⟩ <;> simp only [pendingBody, packframeBody, h]
    · exact .raised _ _
    · exact .framePart rfl (frameBody_error _)
  | crc =>
    simp only [pendingBody, crcBody]
    split
    · exact .raised _ _
    · exact .noError rfl

theorem startCrc_error (s : State) (op : Pending) : ErrorEffect op s (startCrc s) := by
  unfold startCrc
  split
  · exact .raised _ _
  · split <;> exact .noError rfl

theorem startStep_error (s : State) : ErrorEffect s.pending s (startStep s) := by
  unfold startStep
  split
  case h_1 => exact .noError rfl
  case h_2 hop => rw [hop]; exact complete_error .pack s
  case h_3 hop =>
    rcases packBody_cases s with ⟨info, _, h⟩ | ⟨p, h⟩ <;> simp only [h]
    · exact .raised _ _
    · exact .framePart hop (startFraming_error _)
  case h_4 => exact (startFraming_error s).errorEffect _
  case h_5 => exact startCrc_error s _

theorem padStep_error (s : State) (op : Pending) : ErrorEffect op s (padStep s) := by
  unfold padStep
  split
  · exact .raised _ _
  · split <;> exact .noError rfl

/-- A serial step is START, the CRC command's DATA step, PAD, or one that writes no register (48_serial_engine.md R263 to
R270). -/
theorem serialStep_cases (s : State) :
    serialStep s = startStep s ∨ serialStep s = crcDataStep s ∨ serialStep s = padStep s
      ∨ (serialStep s).regs = s.regs := by
  unfold serialStep
  split
  · exact .inr (.inr (.inr rfl))
  unfold phaseStep
  split
  case h_2 => exact .inl rfl
  case h_5 =>
    split
    · exact .inr (.inl rfl)
    · exact .inr (.inr (.inr (countTo_regs _ _ _ s)))
  case h_8 => exact .inr (.inr (.inl rfl))
  case h_1 => exact .inr (.inr (.inr rfl))
  all_goals exact .inr (.inr (.inr (countTo_regs _ _ _ s)))

/-- The CRC command's DATA step enters no error (48_serial_engine.md R270). -/
theorem crcDataStep_err (s : State) : (crcDataStep s).regs.status.err = s.regs.status.err := by
  unfold crcDataStep
  split <;> rfl

/-- How an engine step of either level enters an error. -/
theorem engineStep_error (s : State) : ErrorEffect s.pending s (engineStep (pendingBody s.pending) s) := by
  rcases engineStep_cases (pendingBody s.pending) s with ⟨_, _, h⟩ | ⟨_, _, h⟩ | ⟨_, h⟩ <;> rw [h]
  · exact complete_error s.pending s
  · exact .noError rfl
  · rcases serialStep_cases s with h | h | h | h
    · rw [h]; exact startStep_error s
    · rw [h]; exact .noError (crcDataStep_err s)
    · rw [h]; exact padStep_error s _
    · exact .noError (by rw [h])

/-- Settles O34: of the effects of a step only ILLCMD and an engine step enter an error, each by the error entry, and only
the FRAME part of PACKFRAME has written anything before it. -/
theorem errorLeavesNoPartialOutput : Obligations.ErrorLeavesNoPartialOutput := by
  intro s t hstep hnone herr
  cases step_effect hstep with
  | unchanged h => exact absurd (h.regs ▸ hnone) herr
  | reset => exact absurd rfl herr
  | operandWrite => simp [hnone] at herr
  | accepted => exact absurd hnone herr
  | cleared => simp [clearStatus, hnone] at herr
  | illegal => exact ⟨rfl, rfl, rfl, rfl, rfl, rfl, fun _ => ⟨rfl, rfl⟩, rfl, rfl, rfl⟩
  | engine =>
    have heffect := engineStep_error (giveEngine s)
    rw [giveEngine_pending] at heffect
    generalize engineStep (pendingBody s.pending) (giveEngine s) = t at heffect herr ⊢
    cases heffect with
    | noError h => exact absurd (h.trans hnone) herr
    | raised => exact ⟨rfl, rfl, rfl, rfl, rfl, rfl, fun _ => ⟨rfl, rfl⟩, rfl, rfl, rfl⟩
    | framePart hop h =>
      cases h with
      | noError h => exact absurd (h.trans hnone) herr
      | raised k info hk =>
        refine ⟨rfl, rfl, rfl, rfl, rfl, rfl, fun hexcept => ?_, rfl, rfl, rfl⟩
        rcases hk with rfl | rfl <;> simp [hop] at hexcept

end Sys2Proof.Machine
end

section
/-! Level S leaves what Level F leaves (48_serial_engine.md R261 to R272): the simulation of the engine phase by phase and its
count of bits are `completes_serial`. -/
namespace Sys2Proof.Machine

/-- Settles O55: after START the bits sent and the bits to come always make the frame (`FrameRun`), or the bits fed always
give the CRC register (`CrcRun`), and each engine step leaves one bit less. -/
theorem serialEngineRefinesCompletion : Obligations.SerialEngineRefinesCompletion := by
  intro s hlevel hbusy hlatch hphase hcalm
  obtain ⟨k, t, hruns, hregs, hnone, hidle, hcount, _⟩ := completes_serial hlevel hbusy hcalm hlatch hphase
  exact ⟨k, t, hruns, hidle, hnone, hregs, hcount⟩

end Sys2Proof.Machine
end

section
/-! The idle block, the reset input, and the words that are illegal or refused (60_exceptions.md R305, R308, R310, R320;
70_reset_and_hazards.md R340, R341). -/
namespace Sys2Proof.Machine

/-- Settles O6: neither agent has anything to do. -/
theorem idleBlockStaysAsItIs : Obligations.IdleBlockStaysAsItIs := by
  intro s hidle hhost
  have hnobody : nextAgent s = .nobody := by simp [nextAgent, hidle, hhost]
  rw [step, turn, hnobody]

/-- Settles O13: the host's turn is the reset input, whatever the block was doing. -/
theorem resetInputClearsTheBlock : Obligations.ResetInputClearsTheBlock := by
  intro s rest hnext
  exact ⟨applyReset (afterHost s rest), step_host hnext, rfl, rfl, rfl, rfl, rfl, rfl⟩

/-- In the idle block the write of a word to CMD is its issue (20_memory.md R62, 47_commands.md R230). -/
theorem step_issue {s : State} {w : Word} {rest : List HostOp} (hnext : HostNext s (.write 0x00 4 w) rest)
    (hidle : s.regs.status.busy = false) : step s = issue w (afterHost s rest) :=
  (step_write hnext (by decide) (by decide)).trans (regWrite_cmd (s := afterHost s rest) hidle w)

/-- The words above 5 are the ones that decode to no command (30_encoding.md R92, R93). -/
theorem exists_decode_error {w : Word} (h : 5 < w.toNat) : ∃ e, decode w = .error e := by
  rcases lt_or_ge w.toNat 16 with hlow | hhigh
  · exact ⟨_, decode_reservedOpcode h hlow⟩
  · exact ⟨_, decode_reservedBits hhigh⟩

/-- With no error pending an illegal word makes the error entry of ILLCMD (60_exceptions.md R305). -/
theorem issue_illegal {w : Word} {s : State} (herr : s.regs.status.err = none) (hw : 5 < w.toNat) :
    issue w s = .next (errorEntry .illcmd (w.setWidth 8) s) := by
  obtain ⟨e, hdec⟩ := exists_decode_error hw
  simp [issue, hdec, herr]

/-- The error entry leaves the machine as an error does (60_exceptions.md R308). -/
theorem errorEntry_eq_failed (k : ErrorKind) (info : Byte) (s : State) : errorEntry k info s = failed s k info := rfl

/-- Settles O7: the write is an issue, and its word decodes to no command. -/
theorem illegalWordRaisesIllcmd : Obligations.IllegalWordRaisesIllcmd := by
  intro s w rest hnext hidle herr hw
  rw [step_issue hnext hidle, issue_illegal (s := afterHost s rest) herr hw, errorEntry_eq_failed,
    BitVec.setWidth_eq_extractLsb' (by decide)]

/-- Settles O8: the write is an issue, and every word but CLRERR's is refused. -/
theorem pendingErrorRefusesCommands : Obligations.PendingErrorRefusesCommands := by
  intro s w rest hnext hidle herr hw
  exact (step_issue hnext hidle).trans (issue_refused hidle herr hw)

end Sys2Proof.Machine
end

section
/-! What no command writes, and what nothing but the reset clears (60_exceptions.md R304, R309, R312). -/
namespace Sys2Proof.Machine

/-- No command writes the operand registers, the level or the host's side, whichever of its moments it is at: an engine
step, nothing, or its issue to the idle block (47_commands.md R230, R237; 60_exceptions.md R309). -/
theorem exec_engineFrame {i : Instr} {s t : State} (h : exec i s = .next t) : EngineFrame s t := by
  have engine (op : Pending) (hop : pendingInstr op = some i) : EngineFrame s t := by
    rw [exec_engineCommand hop] at h
    rcases engineCommand_cases h with ⟨_, _, rfl⟩ | ⟨_, _, rfl⟩ | ⟨_, _, rfl⟩ | ⟨_, _, rfl⟩
    · exact engineStep_engineFrame op s
    · exact .refl _
    · exact .refl _
    · exact ⟨rfl, rfl, rfl, rfl, rfl, rfl⟩
  cases i with
  | nop => cases h; exact .refl s
  | pack => exact engine .pack rfl
  | frame => exact engine .frame rfl
  | packframe => exact engine .packframe rfl
  | crc => exact engine .crc rfl
  | clrerr =>
    cases hbusy : s.regs.status.busy with
    | true => rw [exec_clrerr_busy hbusy] at h; cases h; exact .refl s
    | false => rw [exec_clrerr_idle hbusy] at h; cases h; exact ⟨rfl, rfl, rfl, rfl, rfl, rfl⟩

/-- Settles O32: the frame of exec, field by field. -/
theorem noCommandWritesTheOperands : Obligations.NoCommandWritesTheOperands := by
  intro i s t h
  obtain ⟨hmmsi, hlat, hlon, hlevel, hhost, hrdata⟩ := exec_engineFrame h
  exact ⟨hmmsi, hlat, hlon, hlevel, hhost, hrdata⟩

/-- Settles O37: in the idle block acceptance and ILLCMD need ERR = 0, and CLRERR does not clear code 4. -/
theorem assertionFailureIsFatal : Obligations.AssertionFailureIsFatal := by
  intro s t hstep hidle hfatal hreset
  cases step_effect hstep with
  | unchanged h => rw [h.regs]
  | reset h => exact absurd h.1 hreset
  | operandWrite => exact writeReg_status _ _ _
  | accepted _ _ herr => simp [hfatal] at herr
  | cleared => exact clearStatus_of_noEffect (.inr hfatal)
  | illegal _ _ herr => simp [hfatal] at herr
  | engine hbusy => simp [hidle] at hbusy

end Sys2Proof.Machine
end

section
/-! PACK and PACKFRAME with an operand out of range (40_field_packing.md R131, 60_exceptions.md R302). -/
namespace Sys2Proof.Machine

/-- The mask of the range check bit by bit (40_field_packing.md R131, 60_exceptions.md R302). -/
theorem rangeBad_bits (m la lo : Int) :
    (rangeBad m la lo).getLsbD 0 = mmsiBad m ∧ (rangeBad m la lo).getLsbD 1 = latBad la
      ∧ (rangeBad m la lo).getLsbD 2 = lonBad lo ∧ (rangeBad m la lo).extractLsb' 3 5 = 0#5 := by
  simp only [rangeBad]
  cases mmsiBad m <;> cases latBad la <;> cases lonBad lo <;> decide

theorem mmsiBad_iff (m : Nat) : mmsiBad (m : Int) = true ↔ 2 ^ 30 ≤ m := by
  rw [← Bool.not_eq_false, mmsiBad_eq_false_iff, not_lt]

theorem latBad_iff (la : Int) : latBad la = true ↔ la < -54000000 ∨ 54000000 < la := by
  rw [← Bool.not_eq_false, latBad_eq_false_iff, not_and_or, not_le, not_le]

theorem lonBad_iff (lo : Int) : lonBad lo = true ↔ lo < -108000000 ∨ 108000000 < lo := by
  rw [← Bool.not_eq_false, lonBad_eq_false_iff, not_and_or, not_le, not_le]

/-- PACK's body raises the mask of the failing operands, nothing written (60_exceptions.md R302). -/
theorem packBody_of_not_inRange {s : State} (h : ¬ OperandsInRange s.regs) :
    packBody s = .raised s .valueOutOfRangeError (rangeBad (mmsiVal s.regs) (latVal s.regs) (lonVal s.regs)) := by
  rw [packBody_eq, if_pos (mt (rangeBad_eq_zero_iff_inRange s.regs).mp h)]

/-- Settles O24: both commands begin with the range check, and its mask has one bit per operand. -/
theorem packRejectsOperandsOutOfRange : Obligations.PackRejectsOperandsOutOfRange := by
  intro s hrange
  have hbody := packBody_of_not_inRange hrange
  obtain ⟨hmmsi, hlat, hlon, hhigh⟩ := rangeBad_bits (mmsiVal s.regs) (latVal s.regs) (lonVal s.regs)
  refine ⟨_, hmmsi ▸ mmsiBad_iff _, hlat ▸ latBad_iff _, hlon ▸ lonBad_iff _, hhigh, fun hpack => ?_, fun hpackframe => ?_⟩
  · rw [exec_completing hpack rfl, pendingBody, hbody]
    rfl
  · rw [exec_completing hpackframe rfl, pendingBody, packframeBody, hbody]
    rfl

end Sys2Proof.Machine
end
